-- ==== Sys2Proof/Word.lean ====
section
/-! DEFINITION. The two kinds of data of the block: 32-bit header words and bit sequences (00_scope R5). -/

namespace Sys2Proof

/-- A command or response header, 32 bits, bit 31 most significant (R51, R57). -/
abbrev Header := BitVec 32

/-- A bit sequence, first element the most significant term (R5, R31). -/
abbrev BitSeq := List Bool

end Sys2Proof
end

