-- ==== Sys2Proof/Syntax.lean ====
section
/-! DEFINITION. The four commands of the opcode map, 30_encoding R52. -/

namespace Sys2Proof

/-- One constructor per row of the opcode table. `len` is the header's LEN field, the number of operand bits that follow on
DIN (R51, R53); DEGREE has no operand and its LEN field is ignored (R54). DIVSTEP has no encoding (R52). -/
inductive Instr where
  | loadgen (len : Nat)
  | degree
  | compute (len : Nat)
  | verify (len : Nat)
deriving DecidableEq, Repr

end Sys2Proof
end

