-- ==== Sys2Proof/WellFormed.lean ====
section
/-! DEFINITION. What a header can encode: LEN is an unsigned 30-bit number (30_encoding R51). -/

namespace Sys2Proof

/-- The LEN of a command fits its 30-bit field; DEGREE always encodes (R51, R54). -/
def Instr.wf : Instr → Bool
  | .loadgen len => decide (len < 2 ^ 30)
  | .degree => true
  | .compute len => decide (len < 2 ^ 30)
  | .verify len => decide (len < 2 ^ 30)

end Sys2Proof
end

