-- ==== Sys2Proof/Decode.lean ====
section
/-! DEFINITION. Command headers: the decoder (30_encoding R51 to R54, R59, R60), then the encoder from the same table, the
opcode table itself, and whole command frames (header and operand bits, R50, R60). -/

namespace Sys2Proof

/-- The field OPC, `header[31:30]` (R51). -/
def opcField (h : Header) : BitVec 2 := h.extractLsb' 30 2

/-- The field LEN, `header[29:0]`, as an unsigned number (R51, R53). -/
def lenField (h : Header) : Nat := (h.extractLsb' 0 30).toNat

/-- R52, R59: total, every header is one command; DEGREE drops the LEN field (R54). -/
def decode (h : Header) : Instr :=
  if opcField h = 0b00#2 then .loadgen (lenField h)
  else if opcField h = 0b01#2 then .degree
  else if opcField h = 0b10#2 then .compute (lenField h)
  else .verify (lenField h)

/-- `OPC` of a command (R52). -/
def Instr.opc : Instr → Nat
  | .loadgen _ => 0
  | .degree => 1
  | .compute _ => 2
  | .verify _ => 3

/-- The LEN field an assembler writes: the operand's length, 0 for DEGREE (R54). It is also the number of DIN transfers the
engine consumes (R56, R60). -/
def Instr.operandLen : Instr → Nat
  | .loadgen len => len
  | .degree => 0
  | .compute len => len
  | .verify len => len

/-- The header of a command: OPC in [31:30], LEN in [29:0], so `header = OPC * 2^30 + LEN` (R51). -/
def encode (i : Instr) : Header := BitVec.ofNat 2 i.opc ++ BitVec.ofNat 30 i.operandLen

/-- The name the opcode table gives a command. -/
def Instr.mnemonic : Instr → String
  | .loadgen _ => "LOADGEN"
  | .degree => "DEGREE"
  | .compute _ => "COMPUTE"
  | .verify _ => "VERIFY"

/-- One row of the opcode map as match and mask over the header (R52). -/
structure OpcodeRow where
  mnemonic : String
  pattern : Header
  mask : Header
deriving DecidableEq, Repr

/-- The opcode map (R52, opcode_table.json). -/
def opcodeTable : List OpcodeRow :=
  [{ mnemonic := "LOADGEN", pattern := 0x00000000#32, mask := 0xC0000000#32 },
   { mnemonic := "DEGREE", pattern := 0x40000000#32, mask := 0xC0000000#32 },
   { mnemonic := "COMPUTE", pattern := 0x80000000#32, mask := 0xC0000000#32 },
   { mnemonic := "VERIFY", pattern := 0xC0000000#32, mask := 0xC0000000#32 }]

/-- A header lies in a row. -/
def OpcodeRow.covers (row : OpcodeRow) (h : Header) : Bool := h &&& row.mask == row.pattern

/-- A command delivered whole: the triple (OPC, LEN, DATA) of R50. -/
structure Command where
  instr : Instr
  data : BitSeq
deriving DecidableEq, Repr

/-- R50: `len(DATA) = LEN`, and LEN fits its field. -/
def Command.wf (c : Command) : Bool := c.instr.wf && decide (c.data.length = c.instr.operandLen)

/-- Why a frame does not decode. -/
inductive DecodeError where
  /-- fewer operand bits stand on DIN than the header announces: the frame is not fully delivered (R60, U15) -/
  | operandIncomplete
deriving DecidableEq, Repr

/-- The next `n` bits of DIN, in transfer order, and what stays on DIN (R53, R60); none while fewer have been delivered. -/
def takeOperand (n : Nat) (din : BitSeq) : Option (BitSeq × BitSeq) :=
  if n ≤ din.length then some (din.take n, din.drop n) else none

/-- R60's `decode(header, din)`: the command and the rest of the DIN stream. -/
def decodeFrame (h : Header) (din : BitSeq) : Except DecodeError (Command × BitSeq) :=
  match takeOperand (decode h).operandLen din with
  | none => .error .operandIncomplete
  | some (data, rest) => .ok ({ instr := decode h, data := data }, rest)

/-- One CMD transfer and the DIN transfers of a command frame (R50, R55). -/
def encodeFrame (c : Command) : Header × BitSeq := (encode c.instr, c.data)

/-- The instruction whose bits are `w`, numbered as the opcode table numbers them: the header is one 32-bit transfer, bit 0 its
least significant bit (log 19); bits at or above `nbits` are 0. -/
def decodeTableWord (nbits w : Nat) : Option Instr := some (decode (BitVec.ofNat 32 (w % 2 ^ nbits)))

/-! Every constructor's decoding, on a word written out from R51 and R52: two bits of OPC, thirty of LEN. -/

/-- `00`, LEN = 5: LOADGEN of five bits. -/
theorem decode_loadgen_word : decode 0b00000000000000000000000000000101#32 = .loadgen 5 := by decide

/-- `01`, LEN ignored: DEGREE, here with LEN = 7 (R54). -/
theorem decode_degree_word : decode 0b01000000000000000000000000000111#32 = .degree := by decide

/-- `10`, LEN = 10: COMPUTE of ten bits. -/
theorem decode_compute_word : decode 0b10000000000000000000000000001010#32 = .compute 10 := by decide

/-- `11`, LEN = 14: VERIFY of fourteen bits. -/
theorem decode_verify_word : decode 0b11000000000000000000000000001110#32 = .verify 14 := by decide

end Sys2Proof
end

