-- ==== Sys2Proof/Config.lean ====
section
/-! DEFINITION. The implementation parameters of 00_scope R4: RMAX and LMAX are OPEN, so they are data of the state
(`State.cfg`), never changed by a step; every statement holds for every legal pair. No free value is needed on this
hardware. -/

namespace Sys2Proof

/-- The two capacity parameters of R4. -/
structure Config where
  /-- RMAX, the largest generator degree; GEN has RMAX+1 cells. -/
  rmax : Nat
  /-- LMAX, the number of cells of BUF. -/
  lmax : Nat
deriving DecidableEq, Repr

/-- The constraints R4 puts on RMAX and LMAX. -/
def Config.wf (c : Config) : Bool :=
  decide (16 ≤ c.rmax) && decide (c.rmax ≤ 2 ^ 30 - 2) &&
    decide (c.rmax + 1 ≤ c.lmax) && decide (c.lmax ≤ 2 ^ 30 - 1 + c.rmax)

/-- DESIGN CHOICE (unsafe, log 2): the largest legal pair, "as large as the constraints allow" (R4); with it no command
that a header can encode is over capacity. -/
def Config.largest : Config := { rmax := 2 ^ 30 - 2, lmax := 2 ^ 30 - 1 + (2 ^ 30 - 2) }

end Sys2Proof
end

