-- ==== Sys2Proof/Machine/State.lean ====
section
/-! DEFINITION. The architectural state (10_state), the channels between host and engine (30_encoding R50), the reasons a step
can stop, and the state after reset (R24, R140). -/

namespace Sys2Proof.Machine

/-- PH: the phase of the engine (R17). -/
inductive Phase where
  | idle
  | scan
deriving DecidableEq, Repr

/-- OPL: which command the scan in progress belongs to (R17). -/
inductive ScanOp where
  | compute
  | verify
deriving DecidableEq, Repr

/-- The four status values of a command (60_exceptions R120). -/
inductive Status where
  | ok
  | invalidGenerator
  | emptyPayload
  | frameTooShort
deriving DecidableEq, Repr

/-- A response frame: STATUS, VAL and the DOUT bits (30_encoding R57, R58). -/
structure Response where
  status : Status
  val : Nat
  data : BitSeq
deriving DecidableEq, Repr

/-- Everything the spec gives the machine. Cells of GEN and BUF are listed by position from cell 0; a cell at or beyond the
list's end holds no value: no step has written it since reset, or, for BUF, since the last scan ended (R14, R24, log 5). -/
structure State where
  /-- RMAX and LMAX (R4): the model's own field, no step writes it (log 2). -/
  cfg : Config
  /-- GEN, the generator's cells, `GEN[0]` the leading term (R11, R31). -/
  gen : BitSeq
  /-- R, the generator's degree (R11). -/
  r : Nat
  /-- GV, 1 iff a valid generator has been constructed (R11). -/
  gv : Bool
  /-- BUF, the working buffer's cells, `BUF[0]` the first element loaded (R14, R31); in IDLE no cell holds a value (R14, U2). -/
  buf : BitSeq
  /-- LEN, number of meaningful buffer cells (R14). -/
  len : Nat
  /-- NPOS, number of scan positions (R16). -/
  npos : Nat
  /-- POS, the next position to process (R15). -/
  pos : Nat
  /-- PH (R17). -/
  ph : Phase
  /-- OPL (R17). -/
  opl : ScanOp
  /-- ST.ERR, status of the last completed command (R19, R20). -/
  err : Status
  /-- ST.VOK, result of the last VERIFY that completed with OK (R19, R20). -/
  vok : Bool
  /-- CMD: headers delivered and not yet accepted, oldest first; a held header waits here (R50, R146). -/
  cmd : List Header
  /-- DIN: operand bits delivered and not yet consumed, first element first (R50, R55). -/
  din : BitSeq
  /-- RSP: response headers transferred to the host so far, oldest first (R50, R145, log 16). -/
  rsp : List Header
  /-- DOUT: remainder bits transferred to the host so far, oldest first (R50, R55, log 16). -/
  dout : BitSeq
  /-- A response waiting to be emitted because the host was not ready (R146, U15, log 9). -/
  pend : Option Response
  /-- Input: the host is ready to take a response (R50; the model's own field, log 9). -/
  rspReady : Bool
  /-- Input RST: the host requests a reset (R50, R140, log 11). -/
  rst : Bool
deriving DecidableEq, Repr

/-- Why the machine stops although no rule lets it: each is raised only in states no run reaches, so stopping is safe. -/
inductive Fault where
  /-- An access outside `0 .. LEN-1` of BUF or `0 .. R` of GEN; raised by memRead, memWrite and readCell (R36, U1). Safe. -/
  | outOfBuffer
  /-- A read of, or a write beyond, a cell that holds no value; raised by memRead, memWrite and readCell (R24, U2). Safe. -/
  | unwrittenCell
  /-- PH = SCAN with POS beyond NPOS: no step is enabled (R81); raised by scanStep. Safe. -/
  | noEnabledStep
deriving DecidableEq, Repr

/-- Why a step has no meaning. -/
inductive Refusal where
  /-- An instruction without a meaning; raised by no arm of exec (every command has its meaning). Safe. -/
  | notModelled (mnemonic : String)
  /-- A command that asks for more cells than the block has: outside its domain (R134, U6); raised by execLoadgen, execCompute and
  execVerify. Safe: the spec tells a model to refuse it. -/
  | overCapacity
  /-- RST asserted while a command frame is only partly delivered (R142, U10); raised by resetStep. Safe. -/
  | resetDuringDelivery
deriving DecidableEq, Repr

/-- What one step answers. -/
abbrev Result := Host.Outcome State Fault Refusal

/-- The reset state of R24 for an implementation with parameters `c`: GV = 0, R = 0, PH = IDLE, LEN = NPOS = POS = 0, ST = 0; no
cell of GEN or BUF holds a value (log 5); OPL is COMPUTE (log 6, DESIGN CHOICE, never read before it is written); the channels are
empty and the host is ready (log 7, log 9). -/
def State.resetWith (c : Config) : State :=
  { cfg := c, gen := [], r := 0, gv := false, buf := [], len := 0, npos := 0, pos := 0, ph := .idle, opl := .compute,
    err := .ok, vok := false, cmd := [], din := [], rsp := [], dout := [], pend := none, rspReady := true, rst := false }

/-- The machine right after reset (R24, R140), with the largest legal capacity (log 2). -/
def State.reset : State := State.resetWith Config.largest

end Sys2Proof.Machine
end

