-- ==== Sys2Proof/Machine/Flags.lean ====
section
/-! DEFINITION. Status codes, the status port ST, the response header, and the one Boolean a command produces. The block has no
carry, zero, sign or overflow flag (10_state R21). -/

namespace Sys2Proof.Machine

/-- The numeric status codes (R120). -/
def Status.code : Status → BitVec 2
  | .ok => 0b00#2
  | .invalidGenerator => 0b01#2
  | .emptyPayload => 0b10#2
  | .frameTooShort => 0b11#2

/-- ST.BUSY: 1 iff PH = SCAN (R19). -/
def State.busy (s : State) : Bool := decide (s.ph = .scan)

/-- The word the status port shows: ERR in [1:0], VOK in [2], GV in [3], BUSY in [4], [31:5] hardwired 0 (R19). -/
def State.statusPort (s : State) : BitVec 32 :=
  0#27 ++ (BitVec.ofBool s.busy ++ (BitVec.ofBool s.gv ++ (BitVec.ofBool s.vok ++ s.err.code)))

/-- The response header: STATUS in [31:30], VAL in [29:0] (R57). -/
def Response.header (r : Response) : Header := r.status.code ++ BitVec.ofNat 30 r.val

/-- `allzero(s)`: every element is 0; true for the empty sequence (R5). -/
def allZero (s : BitSeq) : Bool := s.all (fun b => !b)

/-- VAL of a VERIFY response: 1 for true, 0 for false (R58, R101). -/
def boolVal (b : Bool) : Nat := if b then 1 else 0

end Sys2Proof.Machine
end

