-- ==== Sys2Proof/Machine/Operands.lean ====
section
/-! DEFINITION. Bit sequences as operands: zeros, XOR, cells of GEN and BUF by position, and the views the rules name
(the generator `GEN[0 .. R]`, the remainder REM). There is no addressing mode (20_memory R47). -/

namespace Sys2Proof.Machine

/-- `zeros(n)` (R5). -/
def zeros (n : Nat) : BitSeq := List.replicate n false

/-- `a ^ b` on two sequences of equal length, bit for bit (R5, R87). -/
def xorSeq (a b : BitSeq) : BitSeq := List.zipWith xor a b

/-- The cells with `v` written at `addr, addr+1, ...`; every other cell keeps what it held (R6 MemWrite, R37). -/
def storeAt (addr : Nat) (v cells : BitSeq) : BitSeq := cells.take addr ++ v ++ cells.drop (addr + v.length)

/-- The generator polynomial's bits, `GEN[0 .. R]` (R11). -/
def State.generator (s : State) : BitSeq := s.gen.take (s.r + 1)

/-- The buffer of the command in progress, `BUF[0 .. LEN-1]` (R14). -/
def State.buffer (s : State) : BitSeq := s.buf.take s.len

/-- REM = `BUF[LEN-R .. LEN-1]` (R18). -/
def State.remainder (s : State) : BitSeq := s.buffer.drop (s.len - s.r)

end Sys2Proof.Machine
end

