-- ==== Sys2Proof/Machine/Ops.lean ====
section
/-! DEFINITION. The named operations: cell access (20_memory R36, R37), accepting a command (70 R146), emitting a response
(30_encoding R57), raising an error (60_exceptions R124) and reset (70 R140). -/

namespace Sys2Proof.Machine

/-- Read of one cell of a bit-addressed space of which cells `0 .. bound-1` are in use (R36). -/
def readCell (cells : BitSeq) (bound a : Nat) : Except Fault Bool :=
  if bound ≤ a then .error .outOfBuffer
  else match cells[a]? with
    | none => .error .unwrittenCell
    | some b => .ok b

/-- `MemRead(addr, n)`: legal iff `addr + n <= bound` (R6, R36). -/
def memRead (cells : BitSeq) (bound addr n : Nat) : Except Fault BitSeq :=
  if bound < addr + n then .error .outOfBuffer
  else if cells.length < addr + n then .error .unwrittenCell
  else .ok ((cells.drop addr).take n)

/-- `MemWrite(addr, n, v)` with `n = len(v)`: legal iff `addr + n <= bound` (R6, R36). -/
def memWrite (cells : BitSeq) (bound addr : Nat) (v : BitSeq) : Except Fault BitSeq :=
  if bound < addr + v.length then .error .outOfBuffer
  else if cells.length < addr then .error .unwrittenCell
  else .ok (storeAt addr v cells)

/-- Turn a computed state or the fault of an access into the answer of a step. -/
def answer : Except Fault State → Result
  | .ok s => .next s
  | .error f => .fault f

/-- The engine can take a command: PH = IDLE and no response is waiting to be emitted (R146). -/
def State.canAccept (s : State) : Bool := decide (s.ph = .idle) && s.pend.isNone

/-- The header and the operand of the accepted command leave their channels (R56). -/
def State.consume (s : State) (rest : BitSeq) : State := { s with cmd := s.cmd.tail, din := rest }

/-- The ACCEPT step of a command with `n` operand bits: the command is taken whole or not at all. While the engine cannot take it
(R146: the header is held) or its operand bits have not all been delivered (U15: the engine waits), nothing changes (log 10). -/
def accept (n : Nat) (act : BitSeq → State → Result) (s : State) : Result :=
  if s.canAccept then
    match takeOperand n s.din with
    | none => .next s
    | some (data, rest) => act data (s.consume rest)
  else .next s

/-- `emit RSP(status, val, data)`: the header goes to RSP and the bits to DOUT, first element first (R57, R58), if the host is ready
to take them; otherwise the response waits (R50, R146, log 9). -/
def State.emit (s : State) (m : Response) : State :=
  { s with
    rsp := if s.rspReady then s.rsp ++ [m.header] else s.rsp
    dout := if s.rspReady then s.dout ++ m.data else s.dout
    pend := if s.rspReady then none else some m }

/-- ST.ERR <- e. -/
def State.setErr (s : State) (e : Status) : State := { s with err := e }

/-- What `raise E()` leaves: ST.ERR takes the code, the response carries it with VAL = 0 and no DOUT; every other register keeps
its value and PH stays IDLE (R124). -/
def State.raised (s : State) (e : Status) : State := (s.setErr e).emit { status := e, val := 0, data := [] }

/-- `raise E()`, the rest of the failing command (R124). Nothing is saved, so there is nothing a return could restore: the block has
none (R126). -/
def raise (e : Status) (s : State) : Result := .next (s.raised e)

/-- A command that completes with OK in its ACCEPT or COMPLETE step: ST.ERR <- 0, then the response (R70, R72, R91, R101). -/
def State.finish (s : State) (val : Nat) (data : BitSeq) : State :=
  (s.setErr .ok).emit { status := .ok, val := val, data := data }

/-- The waiting response goes to the host as soon as the host is ready (R50, R146, log 9). -/
def State.transfer (s : State) (m : Response) : State := if s.rspReady then { s with pend := none }.emit m else s

/-- The load of ACCEPT: the sequence goes to `BUF[0 ..]`, the scan registers are set, PH <- SCAN (R37, R90, R100). -/
def State.loadScan (s : State) (op : ScanOp) (b : BitSeq) (npos : Nat) : State :=
  { s with buf := storeAt 0 b s.buf, len := b.length, npos := npos, pos := 0, opl := op, ph := .scan }

/-- The end of a scan: PH <- IDLE, and the transient buffer is released, so no cell of BUF holds a value until the next ACCEPT loads
it (R14, R91). Cells without a value are cells that no step has written (log 5). -/
def State.release (s : State) : State := { s with buf := [], ph := .idle }

/-- A command frame is partly delivered: fewer operand bits stand on DIN than the headers on CMD announce (R142). -/
def State.partlyDelivered (s : State) : Bool :=
  decide (s.din.length < (s.cmd.map (fun h => (decode h).operandLen)).sum)

/-- The engine's registers take their reset values; what the host has delivered and received stays with the host; no response is
waiting; the request is served (R24, R140, log 11). -/
def State.afterReset (s : State) : State :=
  { State.resetWith s.cfg with
    cmd := s.cmd, din := s.din, rsp := s.rsp, dout := s.dout, rspReady := s.rspReady }

/-- The step that serves RST (R140); a scan in progress is abandoned and never answered (R142); in the middle of a frame's
delivery the spec gives no outcome (R142, U10, log 12). -/
def resetStep (s : State) : Result :=
  if s.partlyDelivered then .refused .resetDuringDelivery else .next s.afterReset

/-- The command whose header stands first on CMD. -/
def State.fetch (s : State) : Option Instr := s.cmd.head?.map decode

end Sys2Proof.Machine
end

