-- ==== Sys2Proof/Machine/Divider.lean ====
section
/-! DEFINITION. The division scan: the function `divide` (41_divider R80) and the engine's internal step DIVSTEP (R82). -/

namespace Sys2Proof.Machine

/-- One position of `divide`: if the current bit at `i` is 1, XOR the generator into the window `[i, i+r]` (R80). -/
def reduceAt (g b : BitSeq) (i : Nat) : BitSeq :=
  if b[i]? = some true then storeAt i (xorSeq ((b.drop i).take g.length) g) b else b

/-- `k` positions from `i` on, left to right, each seeing the buffer as the one before left it (R80, R83). -/
def scanFrom (g : BitSeq) : Nat → Nat → BitSeq → BitSeq
  | 0, _, b => b
  | k + 1, i, b => scanFrom g k (i + 1) (reduceAt g b i)

/-- `divide(b, g)`: scan the first `n - r` positions, return the last `r` bits (R80). -/
def divide (b g : BitSeq) : BitSeq :=
  (scanFrom g (b.length - (g.length - 1)) 0 b).drop (b.length - (g.length - 1))

/-- `BUF` after the window update at POS: `w <- MemRead(i, R+1); MemWrite(i, R+1, w ^ GEN[0 .. R])` (R82). -/
def windowUpdate (s : State) : Except Fault BitSeq := do
  let w ← memRead s.buf s.len s.pos (s.r + 1)
  let g ← memRead s.gen (s.r + 1) 0 (s.r + 1)
  memWrite s.buf s.len s.pos (xorSeq w g)

/-- `BUF` after DIVSTEP: the window update when the tested bit is 1, nothing when it is 0 (R82). -/
def divBuffer (s : State) : Except Fault BitSeq := do
  let bit ← readCell s.buf s.len s.pos
  if bit then windowUpdate s else pure s.buf

/-- DIVSTEP's writes: the buffer and POS <- POS + 1 whether or not it XORed (R15, R82). -/
def State.advance (s : State) (b : BitSeq) : State := { s with buf := b, pos := s.pos + 1 }

/-- DIVSTEP (R82). -/
def divStep (s : State) : Result := answer ((divBuffer s).map s.advance)

/-- `rem <- MemRead(LEN - R, R)` of COMPLETE (R91, R101); a buffer shorter than R has no such cells (R36). -/
def readRemainder (s : State) : Except Fault BitSeq := memRead s.buf s.len (s.len - s.r) s.r

end Sys2Proof.Machine
end

