-- ==== Sys2Proof/Machine/Compute.lean ====
section
/-! DEFINITION. COMPUTE: its ACCEPT step (42_compute R90), its COMPLETE step (R91) and the whole command as a function (R92). -/

namespace Sys2Proof.Machine

/-- COMPUTE once its operand is there: capacity (R134, log 3), generator, empty payload (R123), then the load (R90). -/
def computeAct (data : BitSeq) (s : State) : Result :=
  if s.cfg.lmax < data.length + s.r then .refused .overCapacity
  else if s.gv = false then raise .invalidGenerator s
  else if data = [] then raise .emptyPayload s
  else .next (s.loadScan .compute (data ++ zeros s.r) data.length)

/-- COMPUTE, ACCEPT step (R90). -/
def execCompute (len : Nat) (s : State) : Result := accept len computeAct s

/-- COMPUTE, COMPLETE step: return the remainder, after which the buffer holds no value; ST.VOK is unchanged (R91). -/
def completeCompute (rem : BitSeq) (s : State) : State := s.release.finish s.r rem

/-- `compute(p, g) = divide(p ++ zeros(r), g)` (R92). -/
def computeOf (p g : BitSeq) : BitSeq := divide (p ++ zeros (g.length - 1)) g

end Sys2Proof.Machine
end

