-- ==== Sys2Proof/Machine/Generator.lean ====
section
/-! DEFINITION. The generator commands LOADGEN (40_generator R70, R71) and DEGREE (R72). -/

namespace Sys2Proof.Machine

/-- GEN[k] <- DATA[k], R <- len(DATA) - 1, GV <- 1; GEN above R keeps what it held (R70). -/
def State.loadGenerator (s : State) (data : BitSeq) : State :=
  { s with gen := storeAt 0 data s.gen, r := data.length - 1, gv := true }

/-- LOADGEN once its operand is there: capacity (R134, log 3), then the two causes of InvalidGenerator (R70, R123), then the
writes. -/
def loadgenAct (data : BitSeq) (s : State) : Result :=
  if s.cfg.rmax < data.length - 1 then .refused .overCapacity
  else match data with
    | [] => raise .invalidGenerator s
    | false :: _ => raise .invalidGenerator s
    | true :: _ => .next ((s.loadGenerator data).finish (data.length - 1) [])

/-- LOADGEN, the whole command (R70). -/
def execLoadgen (len : Nat) (s : State) : Result := accept len loadgenAct s

/-- DEGREE: InvalidGenerator without a generator, else the degree (R72). -/
def degreeAct (s : State) : Result := if s.gv then .next (s.finish s.r []) else raise .invalidGenerator s

/-- DEGREE, the whole command; no DIN bit is consumed (R54, R72). -/
def execDegree (s : State) : Result := accept 0 (fun _ t => degreeAct t) s

end Sys2Proof.Machine
end

