-- ==== Sys2Proof/Machine/Verify.lean ====
section
/-! DEFINITION. VERIFY: its ACCEPT step (43_verify R100), its COMPLETE step (R101) and the whole command as a function (R102). -/

namespace Sys2Proof.Machine

/-- VERIFY once its operand is there: capacity (R134, log 3), generator, frame too short (R123), then the load (R100). -/
def verifyAct (data : BitSeq) (s : State) : Result :=
  if s.cfg.lmax < data.length then .refused .overCapacity
  else if s.gv = false then raise .invalidGenerator s
  else if data.length < s.r then raise .frameTooShort s
  else .next (s.loadScan .verify data (data.length - s.r))

/-- VERIFY, ACCEPT step (R100). -/
def execVerify (len : Nat) (s : State) : Result := accept len verifyAct s

/-- VERIFY, COMPLETE step: ST.VOK <- allzero(rem), response 1 or 0, no DOUT; a false result is not an error (R101, R103).
The buffer holds no value afterwards (R14). -/
def completeVerify (rem : BitSeq) (s : State) : State :=
  { s.release with vok := allZero rem }.finish (boolVal (allZero rem)) []

/-- `verify(f, g) = allzero(divide(f, g))` (R102). -/
def verifyOf (f g : BitSeq) : Bool := allZero (divide f g)

end Sys2Proof.Machine
end

