-- ==== Sys2Proof/Machine/Dispatch.lean ====
section
/-! DEFINITION. One arm per command of the opcode map (30_encoding R52). -/

namespace Sys2Proof.Machine

/-- The ACCEPT step of a command (R10, R52). -/
def exec (i : Instr) (s : State) : Host.Outcome State Fault Refusal :=
  match i with
  | .loadgen len => Sys2Proof.Machine.execLoadgen len s
  | .degree => Sys2Proof.Machine.execDegree s
  | .compute len => Sys2Proof.Machine.execCompute len s
  | .verify len => Sys2Proof.Machine.execVerify len s

end Sys2Proof.Machine
end

