-- ==== Sys2Proof/Machine/Scan.lean ====
section
/-! DEFINITION. The phase machine inside a scan (41_divider R81, R89): DIVSTEP while POS < NPOS, COMPLETE when POS = NPOS. -/

namespace Sys2Proof.Machine

/-- What COMPLETE makes of the remainder, by OPL (R17, R91, R101). -/
def State.completeWith (s : State) (rem : BitSeq) : State :=
  match s.opl with
  | .compute => completeCompute rem s
  | .verify => completeVerify rem s

/-- COMPLETE (R91, R101). -/
def completeStep (s : State) : Result := answer ((readRemainder s).map s.completeWith)

/-- The engine's only enabled step while PH = SCAN (R81); beyond NPOS none is enabled (log 23). -/
def scanStep (s : State) : Result :=
  if s.pos < s.npos then divStep s
  else if s.pos = s.npos then completeStep s
  else .fault .noEnabledStep

end Sys2Proof.Machine
end

