-- ==== Sys2Proof/Machine/Step.lean ====
section
/-! DEFINITION. One step of the engine (10_state R10, 41_divider R81, 70 R140, R146), and the placing of a command where the next
step accepts it. -/

namespace Sys2Proof.Machine

/-- A requested reset is served first; then a waiting response goes out; then the scan in progress takes its step; an idle engine
accepts the first command on CMD, or waits for one (R81, R140, R146). -/
def step (s : State) : Host.Outcome State Fault Refusal :=
  if s.rst then resetStep s
  else match s.pend with
    | some m => .next (s.transfer m)
    | none =>
      match s.ph with
      | .scan => scanStep s
      | .idle =>
        match s.fetch with
        | none => .next s
        | some i => exec i s

/-- `s` with the header whose bits are `w` first on CMD and an operand of zeros of the length it announces first on DIN, in the phase
in which the next step accepts it (log 8). -/
def State.withFetchWord (s : State) (nbits w : Nat) : State :=
  { s with
    cmd := BitVec.ofNat 32 (w % 2 ^ nbits) :: s.cmd
    din := zeros (decode (BitVec.ofNat 32 (w % 2 ^ nbits))).operandLen ++ s.din
    ph := .idle
    pend := none
    rst := false }

end Sys2Proof.Machine
end

