-- ==== Sys2Proof/Machine/HostSide.lean ====
section
/-! DEFINITION. What the host may do to the block and what it builds for it (70 R144, R145; 20_memory R32; 42_compute R94). Each is
an input between two steps. -/

namespace Sys2Proof.Machine

/-- The host delivers a command frame: one CMD transfer, then its DIN transfers (R50, R144). -/
def State.deliver (s : State) (c : Command) : State :=
  { s with cmd := s.cmd ++ [(encodeFrame c).1], din := s.din ++ (encodeFrame c).2 }

/-- The host asserts RST (R140, R144). -/
def State.requestReset (s : State) : State := { s with rst := true }

/-- The host becomes ready, or not ready, to take a response (R50, R144). -/
def State.setReady (s : State) (b : Bool) : State := { s with rspReady := b }

/-- The run has ended: every issued command has its response and PH = IDLE (R145). DESIGN CHOICE (log 24, unsafe): a command that a
reset leaves without its response no longer counts as issued, whether the reset came in its scan (R142) or in IDLE while its response
waited (the drop is log 11); so this holds right after such a reset, although the host never received that response. -/
def State.runEnded (s : State) : Bool := decide (s.ph = .idle) && s.pend.isNone && s.cmd.isEmpty

/-- The eight elements of a byte, most significant bit first (R32). -/
def byteBits (b : BitVec 8) : BitSeq :=
  [b.getLsbD 7, b.getLsbD 6, b.getLsbD 5, b.getLsbD 4, b.getLsbD 3, b.getLsbD 2, b.getLsbD 1, b.getLsbD 0]

/-- A sequence of bytes: the concatenation of their expansions in byte order (R32). -/
def bytesBits (bs : List (BitVec 8)) : BitSeq := bs.flatMap byteBits

/-- The frame the host builds from a payload and the remainder it received (R94). -/
def mkFrame (p c : BitSeq) : BitSeq := p ++ c

end Sys2Proof.Machine
end

