-- ==== Sys2Proof/Machine/Assembler.lean ====
section
/-! DEFINITION. The host's line forms (30_encoding R61) and pseudo-instructions (R62). None of them is known to the engine: each
becomes command frames, and an expected response is written as R61 writes it. Text layout the spec leaves open is log 20. -/

namespace Sys2Proof.Machine

/-- An operand as R61 and R62 write it: quoted bits, or `x` and quoted hex bytes. -/
inductive AsmOperand where
  | bits (b : BitSeq)
  | hex (bytes : List (BitVec 8))
deriving DecidableEq, Repr

/-- One command line of R61. -/
inductive AsmLine where
  | loadgen (o : AsmOperand)
  | degree
  | compute (o : AsmOperand)
  | verify (o : AsmOperand)
deriving DecidableEq, Repr

/-- Why a line is no command. -/
inductive AsmError where
  /-- nothing stands before the comment -/
  | blankLine
  /-- the first word is none of the four mnemonics -/
  | unknownMnemonic
  /-- the operand is missing, is one too many, or is not quoted bits or quoted hex bytes -/
  | badOperand
deriving DecidableEq, Repr

/-- The bit sequence of an operand; hex bytes expand most significant bit first (R32, R62). -/
def AsmOperand.toBits : AsmOperand → BitSeq
  | .bits b => b
  | .hex bytes => bytesBits bytes

/-- The command of a line: LEN is the operand's length, DEGREE has none (R61). -/
def AsmLine.command : AsmLine → Command
  | .loadgen o => { instr := .loadgen o.toBits.length, data := o.toBits }
  | .degree => { instr := .degree, data := [] }
  | .compute o => { instr := .compute o.toBits.length, data := o.toBits }
  | .verify o => { instr := .verify o.toBits.length, data := o.toBits }

/-- MKFRAME: the frame from the payload and the response to its COMPUTE, if that is OK (R62). -/
def mkFrameOf (p : BitSeq) (m : Response) : Option BitSeq := if m.status = .ok then some (mkFrame p m.data) else none

/-- CHECK: the VERIFY line of the frame just formed (R62). -/
def checkLine (p : BitSeq) (m : Response) : Option AsmLine := (mkFrameOf p m).map (fun f => .verify (.bits f))

/-- CHECK's demand on the last response: `OK true` (R62). -/
def checkPassed (m : Response) : Bool := decide (m = { status := .ok, val := 1, data := [] })

/-- The double quote. -/
def quoteChar : Char := Char.ofNat 34

/-- A character of a bit literal (R61). -/
def bitOfChar (c : Char) : Option Bool :=
  if c = '0' then some false else if c = '1' then some true else none

/-- A hex digit (R62). -/
def hexOfChar (c : Char) : Option Nat :=
  if '0'.toNat ≤ c.toNat ∧ c.toNat ≤ '9'.toNat then some (c.toNat - '0'.toNat)
  else if 'a'.toNat ≤ c.toNat ∧ c.toNat ≤ 'f'.toNat then some (c.toNat - 'a'.toNat + 10)
  else if 'A'.toNat ≤ c.toNat ∧ c.toNat ≤ 'F'.toNat then some (c.toNat - 'A'.toNat + 10)
  else none

/-- A bit literal's body, first element leftmost (R61). -/
def parseBits : List Char → Option BitSeq
  | [] => some []
  | c :: t => match bitOfChar c, parseBits t with
    | some b, some u => some (b :: u)
    | _, _ => none

/-- A hex literal's body, two digits a byte (R62). -/
def parseHex : List Char → Option (List (BitVec 8))
  | [] => some []
  | [_] => none
  | a :: b :: t => match hexOfChar a, hexOfChar b, parseHex t with
    | some x, some y, some u => some (BitVec.ofNat 8 (16 * x + y) :: u)
    | _, _, _ => none

/-- What stands between two quotes, when the word is exactly that. -/
def unquote : List Char → Option (List Char)
  | [] => none
  | c :: t => if c = quoteChar ∧ t.getLast? = some quoteChar then some t.dropLast else none

/-- An operand word (R61, R62). -/
def parseOperand (w : List Char) : Option AsmOperand :=
  match w with
  | 'x' :: t => ((unquote t).bind parseHex).map .hex
  | t => ((unquote t).bind parseBits).map .bits

/-- The words of a line before its comment, which `;` starts; `acc` is the word being read, in reverse. -/
def asmWords : List Char → List Char → List (List Char)
  | [], acc => if acc = [] then [] else [acc.reverse]
  | c :: t, acc =>
    if c = ';' then (if acc = [] then [] else [acc.reverse])
    else if c = ' ' then (if acc = [] then asmWords t [] else acc.reverse :: asmWords t [])
    else asmWords t (c :: acc)

/-- One line of R61, its comment and its expected response (after `=>`) left out. -/
def parseLine (line : List Char) : Except AsmError AsmLine :=
  match (asmWords line []).takeWhile (fun w => w != ['=', '>']) with
  | [] => .error .blankLine
  | [m] =>
    if m = "DEGREE".toList then .ok .degree
    else if m = "LOADGEN".toList ∨ m = "COMPUTE".toList ∨ m = "VERIFY".toList then .error .badOperand
    else .error .unknownMnemonic
  | m :: w :: more =>
    match if more = [] then parseOperand w else none with
    | none =>
      if m = "LOADGEN".toList ∨ m = "COMPUTE".toList ∨ m = "VERIFY".toList ∨ m = "DEGREE".toList then .error .badOperand
      else .error .unknownMnemonic
    | some o =>
      if m = "LOADGEN".toList then .ok (.loadgen o)
      else if m = "COMPUTE".toList then .ok (.compute o)
      else if m = "VERIFY".toList then .ok (.verify o)
      else if m = "DEGREE".toList then .error .badOperand
      else .error .unknownMnemonic

/-- A bit sequence in quotes (R5, R61). -/
def bitsText (b : BitSeq) : List Char := quoteChar :: (b.map (fun x => if x then '1' else '0') ++ [quoteChar])

/-- The name of a status (R120). -/
def Status.text : Status → List Char
  | .ok => "OK".toList
  | .invalidGenerator => "InvalidGenerator".toList
  | .emptyPayload => "EmptyPayload".toList
  | .frameTooShort => "FrameTooShort".toList

/-- A response as R61 writes it after `=>`: `OK <val>`, `OK "<remainder bits>"`, `OK true`, `OK false`, or the error's name. -/
def expectedText (i : Instr) (m : Response) : List Char :=
  if m.status = .ok then
    match i with
    | .loadgen _ => m.status.text ++ [' '] ++ Nat.toDigits 10 m.val
    | .degree => m.status.text ++ [' '] ++ Nat.toDigits 10 m.val
    | .compute _ => m.status.text ++ [' '] ++ bitsText m.data
    | .verify _ => m.status.text ++ [' '] ++ (if m.val = 1 then "true".toList else "false".toList)
  else m.status.text

end Sys2Proof.Machine
end

