-- ==== Sys2Proof/Safety.lean ====
section
/-! DEFINITION. What claims about the block are stated in: the invariant of every state a run can reach, the frame and response
vocabulary, and the polynomial a bit sequence stands for (00_scope R5). -/

namespace Sys2Proof.Machine

/-- `k` steps of the machine, stopping at the first fault or refusal. -/
def runFor (k : Nat) (s : State) : Result := Host.Core.run core k s

/-- The combinations the response table allows (R58): an error carries nothing; data bits are counted by VAL; VAL fits 30 bits. -/
def Response.wf (m : Response) : Bool :=
  (decide (m.status = .ok) || (decide (m.val = 0) && m.data.isEmpty)) &&
    (m.data.isEmpty || decide (m.data.length = m.val)) && decide (m.val < 2 ^ 30)

/-- The cell lists stay inside their address spaces: GEN has RMAX+1 cells, BUF has LMAX (R30). A list by position has no order and no
gaps to keep, so equal contents are equal lists. -/
def State.memWf (s : State) : Bool := decide (s.gen.length ≤ s.cfg.rmax + 1) && decide (s.buf.length ≤ s.cfg.lmax)

/-- What every state a run can reach satisfies. -/
structure State.Inv (s : State) : Prop where
  /-- R4 -/
  cfg_wf : s.cfg.wf = true
  /-- R30 -/
  mem_wf : s.memWf = true
  /-- R12 -/
  r_le : s.r ≤ s.cfg.rmax
  /-- R12, R24: GEN[0 .. R] was written by the LOADGEN that set GV -/
  gen_written : s.gv = true → s.r + 1 ≤ s.gen.length
  /-- R12 -/
  gen_leading : s.gv = true → s.gen.head? = some true
  /-- U4: R keeps its reset value until a generator is loaded -/
  r_zero : s.gv = false → s.r = 0
  /-- R15 -/
  pos_le : s.pos ≤ s.npos
  /-- R15 -/
  npos_le : s.npos ≤ s.len
  /-- R15 -/
  len_le : s.len ≤ s.cfg.lmax
  /-- R17: only a command that found a generator starts a scan -/
  scan_gv : s.ph = .scan → s.gv = true
  /-- R16 -/
  scan_npos : s.ph = .scan → s.npos + s.r = s.len
  /-- R14: the cells `0 .. LEN-1` were written by ACCEPT -/
  scan_written : s.ph = .scan → s.len ≤ s.buf.length
  /-- R84 -/
  scan_zero : s.ph = .scan → ∀ a, a < s.pos → s.buf[a]? = some false
  /-- R146: no response waits while a command is in progress -/
  scan_quiet : s.ph = .scan → s.pend = none
  /-- R58 -/
  pend_wf : ∀ m, s.pend = some m → m.wf = true

/-- The working buffer is transient (R14): in IDLE none of its cells holds a value, in SCAN exactly the LEN cells of the command in
progress do. -/
structure State.BufTransient (s : State) : Prop where
  idle_empty : s.ph = .idle → s.buf = []
  scan_exact : s.ph = .scan → s.buf.length = s.len

/-- The engine is idle with no response waiting, and DIN starts with the operand `data`, followed by `rest` (R146, R53). -/
structure State.Presents (s : State) (data rest : BitSeq) : Prop where
  idle : s.ph = .idle
  quiet : s.pend = none
  din : s.din = data ++ rest

/-- The command asks for no more cells than the block has (R134). -/
def State.fits (s : State) : Instr → Bool
  | .loadgen len => decide (len - 1 ≤ s.cfg.rmax)
  | .degree => true
  | .compute len => decide (len + s.r ≤ s.cfg.lmax)
  | .verify len => decide (len ≤ s.cfg.lmax)

/-- The generator register is unchanged, every cell of it. -/
structure State.SameGen (s t : State) : Prop where
  gen : t.gen = s.gen
  r : t.r = s.r
  gv : t.gv = s.gv

/-- The buffer, every cell of it, and the scan registers are unchanged. -/
structure State.SameScan (s t : State) : Prop where
  buf : t.buf = s.buf
  len : t.len = s.len
  npos : t.npos = s.npos
  pos : t.pos = s.pos
  opl : t.opl = s.opl

/-- The parameters and the host's inputs RST and readiness are unchanged. -/
structure State.SameInputs (s t : State) : Prop where
  cfg : t.cfg = s.cfg
  rspReady : t.rspReady = s.rspReady
  rst : t.rst = s.rst

/-- The channels towards the engine are unchanged. -/
structure State.SameCommands (s t : State) : Prop where
  cmd : t.cmd = s.cmd
  din : t.din = s.din

/-- The header has left CMD and `rest` is what stays on DIN (R56). -/
structure State.Consumed (s t : State) (rest : BitSeq) : Prop where
  cmd : t.cmd = s.cmd.tail
  din : t.din = rest

/-- Nothing was sent to the host and no response waits that did not wait before. -/
structure State.Silent (s t : State) : Prop where
  rsp : t.rsp = s.rsp
  dout : t.dout = s.dout
  pend : t.pend = s.pend

/-- Exactly the response `m` was given: its header on RSP and its bits on DOUT if the host is ready, else it waits (R50, R57). -/
structure State.Answered (s t : State) (m : Response) : Prop where
  sent : s.rspReady = true → t.rsp = s.rsp ++ [m.header] ∧ t.dout = s.dout ++ m.data ∧ t.pend = none
  waits : s.rspReady = false → t.rsp = s.rsp ∧ t.dout = s.dout ∧ t.pend = some m

/-- A sequence the block accepts as a generator polynomial: non-empty with a set leading bit (R70). -/
def ValidGenerator (g : BitSeq) : Prop := g.head? = some true

/-- `poly(s) = s[0]*x^(n-1) + ... + s[n-1]` over GF(2); the empty sequence is the zero polynomial (R5). -/
noncomputable def poly : BitSeq → Polynomial (ZMod 2)
  | [] => 0
  | b :: t => (if b then Polynomial.X ^ t.length else 0) + poly t

/-- A burst of length `k` somewhere in a frame of `n` bits: first and last flipped bit `k-1` apart, any pattern between (R108). -/
def Burst (k n : Nat) (e : BitSeq) : Prop :=
  ∃ a z b, e = zeros a ++ b ++ zeros z ∧ e.length = n ∧ b.length = k ∧ b.head? = some true ∧ b.getLast? = some true

end Sys2Proof.Machine
end

