-- ==== Sys2Proof/Certificates/Slice0/Obligations.lean ====
section
/-! DEFINITION. The statements for the provers. Each docstring names the rule of the spec it formalises. A statement about runs is
about every state that meets its hypotheses, not about the run from reset. -/

open Sys2Proof Sys2Proof.Machine

/-! ## Encoding (30_encoding) -/

/-- Sanity, tier 1: headers of 30_encoding section 7 and 95_test_vectors 2.7, written out, decode to the commands they stand for. -/
def Obligations.WorkedHeadersDecode : Prop :=
  decode 0x00000005#32 = .loadgen 5 ∧ decode 0x00000000#32 = .loadgen 0 ∧ decode 0x00000011#32 = .loadgen 17 ∧
  decode 0x40000000#32 = .degree ∧ decode 0x40000007#32 = .degree ∧ decode 0x7FFFFFFF#32 = .degree ∧
  decode 0x8000000A#32 = .compute 10 ∧ decode 0xC000000E#32 = .verify 14 ∧ decode 0xC0000018#32 = .verify 24 ∧
  decode 0x3FFFFFFF#32 = .loadgen (2 ^ 30 - 1)

/-- Decode and encode agree, for every well-formed command, its header and its whole frame (R51, R52, R55, R60). -/
def Obligations.DecodeOfEncodeIsIdentity : Prop :=
  (∀ i : Instr, i.wf = true → decode (encode i) = i) ∧
  (∀ (c : Command) (rest : BitSeq), c.wf = true →
    decodeFrame (encodeFrame c).1 ((encodeFrame c).2 ++ rest) = .ok (c, rest))

/-- R52: every header lies in exactly one row of the opcode map, the row of the command it decodes to; OPC selects the command and
LEN is its operand length, DEGREE having none. -/
def Obligations.OpcodeMapDecidesEveryHeader : Prop :=
  ∀ h : Header,
    (∃! row, row ∈ opcodeTable ∧ row.covers h = true) ∧
    (∃ row ∈ opcodeTable, row.covers h = true ∧ row.mnemonic = (decode h).mnemonic) ∧
    (decode h).opc = h.toNat / 2 ^ 30 ∧
    (decode h = .degree ∨ (decode h).operandLen = h.toNat % 2 ^ 30) ∧
    (decode h).wf = true

/-- R51: the header of a well-formed command is OPC * 2^30 + LEN, OPC standing in [31:30] and LEN in [29:0]. -/
def Obligations.HeaderIsOpcAndLen : Prop :=
  ∀ i : Instr, i.wf = true →
    (encode i).toNat = i.opc * 2 ^ 30 + i.operandLen ∧
    (opcField (encode i)).toNat = i.opc ∧ lenField (encode i) = i.operandLen

/-- R54: the LEN field of a DEGREE header is ignored, no DIN bit is consumed, an assembler writes 0, and every header decodes to
exactly one command. -/
def Obligations.DegreeIgnoresItsLenField : Prop :=
  (∀ h : Header, opcField h = 0b01#2 → decode h = .degree) ∧
  (∀ s t : State, exec .degree s = .next t → t.din = s.din) ∧
  encode .degree = 0x40000000#32 ∧
  (∀ h : Header, ∃! i : Instr, decode h = i)

/-- Variable-length frames (30_encoding section 5): a frame's length is told from the header alone; decoding takes exactly that many bits off DIN, in order, or finds the frame
incomplete. -/
def Obligations.FrameDecodingTakesExactlyLenBits : Prop :=
  ∀ (h : Header) (din : BitSeq),
    (∀ d rest : BitSeq, din = d ++ rest → d.length = (decode h).operandLen →
      decodeFrame h din = .ok ({ instr := decode h, data := d }, rest)) ∧
    (din.length < (decode h).operandLen → decodeFrame h din = .error .operandIncomplete)

/-- The response header (30_encoding section 3) is STATUS * 2^30 + VAL, STATUS in [31:30] with the codes 0 to 3, VAL in [29:0];
emitting a response gives the host this header on RSP and its bits on DOUT, no order between the two channels being claimed. That the
whole response waits when the host is not ready is the model's choice, log 9. -/
def Obligations.ResponseHeaderLayout : Prop :=
  (∀ m : Response, m.val < 2 ^ 30 →
    m.header.toNat = m.status.code.toNat * 2 ^ 30 + m.val ∧
    m.header.extractLsb' 30 2 = m.status.code ∧ (m.header.extractLsb' 0 30).toNat = m.val) ∧
  Status.ok.code.toNat = 0 ∧ Status.invalidGenerator.code.toNat = 1 ∧ Status.emptyPayload.code.toNat = 2 ∧
  Status.frameTooShort.code.toNat = 3 ∧
  (∀ (s : State) (m : Response), s.Answered (s.emit m) m)

/-- The response table (30_encoding section 3): a step gives the host at most one response, and only one of the combinations of the response table. -/
def Obligations.OnlyTabledResponsesAreEmitted : Prop :=
  ∀ s t : State, s.Inv → step s = .next t →
    (t.rsp = s.rsp ∧ t.dout = s.dout) ∨
    ∃ m : Response, m.wf = true ∧ t.rsp = s.rsp ++ [m.header] ∧ t.dout = s.dout ++ m.data

/-- The line forms (30_encoding section 6): an assembled line's header is the command's base value plus the number of its bits, and the frame is well formed. -/
def Obligations.AssembledLineHeaders : Prop :=
  ∀ o : AsmOperand, o.toBits.length < 2 ^ 30 →
    (encode (AsmLine.loadgen o).command.instr).toNat = 0x00000000 + o.toBits.length ∧
    (encode AsmLine.degree.command.instr).toNat = 0x40000000 ∧
    (encode (AsmLine.compute o).command.instr).toNat = 0x80000000 + o.toBits.length ∧
    (encode (AsmLine.verify o).command.instr).toNat = 0xC0000000 + o.toBits.length ∧
    (AsmLine.loadgen o).command.wf = true ∧ AsmLine.degree.command.wf = true ∧
    (AsmLine.compute o).command.wf = true ∧ (AsmLine.verify o).command.wf = true

/-- Bytes (20_memory section 2): a byte becomes eight elements, element k its bit 7-k, and a sequence of bytes the concatenation in byte order. -/
def Obligations.BytesExpandMostSignificantFirst : Prop :=
  (∀ (b : BitVec 8) (k : Nat), k < 8 → (byteBits b)[k]? = some (b.getLsbD (7 - k))) ∧
  (∀ (bs : List (BitVec 8)) (b : BitVec 8) (n k : Nat), bs[n]? = some b → k < 8 →
    (bytesBits bs)[8 * n + k]? = some (b.getLsbD (7 - k))) ∧
  (∀ bs : List (BitVec 8), (bytesBits bs).length = 8 * bs.length)

/-! ## Generator commands (40_generator, 10_state) -/

/-- R70: LOADGEN loads exactly a non-empty sequence with a set leading bit and answers its degree; otherwise it answers
InvalidGenerator and changes nothing but ST.ERR. Either way it completes in this step. -/
def Obligations.LoadgenConstructsOrRejects : Prop :=
  ∀ (s : State) (data rest : BitSeq), s.Presents data rest → data.length - 1 ≤ s.cfg.rmax →
    ∃ t, exec (.loadgen data.length) s = .next t ∧
      s.Consumed t rest ∧ s.SameScan t ∧ s.SameInputs t ∧ t.ph = .idle ∧ t.vok = s.vok ∧
      (data.head? = some true →
        t.generator = data ∧ t.r = data.length - 1 ∧ t.gv = true ∧
        (∀ a, data.length ≤ a → t.gen[a]? = s.gen[a]?) ∧ t.err = .ok ∧
        s.Answered t { status := .ok, val := data.length - 1, data := [] }) ∧
      (data.head? ≠ some true →
        s.SameGen t ∧ t.err = .invalidGenerator ∧
        s.Answered t { status := .invalidGenerator, val := 0, data := [] })

/-- R71: after a failing LOADGEN the earlier generator stays loaded, and a COMPUTE that follows uses it. -/
def Obligations.FailedLoadgenKeepsGenerator : Prop :=
  ∀ (s : State) (data rest : BitSeq), s.Presents data rest → data.length - 1 ≤ s.cfg.rmax → data.head? ≠ some true →
    ∃ t, exec (.loadgen data.length) s = .next t ∧ s.SameGen t ∧ t.generator = s.generator ∧
      t.err = .invalidGenerator ∧ s.Answered t { status := .invalidGenerator, val := 0, data := [] } ∧
      (∀ p more : BitSeq, s.gv = true → s.rspReady = true → rest = p ++ more → p ≠ [] → p.length + s.r ≤ s.cfg.lmax →
        ∃ u, exec (.compute p.length) t = .next u ∧ u.ph = .scan ∧ u.buffer = p ++ zeros s.r ∧
          u.generator = s.generator)

/-- R72: DEGREE answers R when a generator is loaded and InvalidGenerator when none is; it writes ST.ERR only. -/
def Obligations.DegreeAnswersTheDegree : Prop :=
  ∀ s : State, s.ph = .idle → s.pend = none →
    ∃ t, exec .degree s = .next t ∧
      s.Consumed t s.din ∧ s.SameGen t ∧ s.SameScan t ∧ s.SameInputs t ∧ t.ph = .idle ∧ t.vok = s.vok ∧
      (s.gv = true → t.err = .ok ∧ s.Answered t { status := .ok, val := s.r, data := [] }) ∧
      (s.gv = false → t.err = .invalidGenerator ∧
        s.Answered t { status := .invalidGenerator, val := 0, data := [] })

/-- R73: R is the degree of poly(GEN[0..R]), the length of every remainder, the number of trailing checksum bits a VERIFY leaves
unscanned, and the least frame length VERIFY accepts. -/
def Obligations.DegreeIsRemainderLength : Prop :=
  ∀ s : State, s.Inv → s.gv = true →
    s.generator.length = s.r + 1 ∧ (poly s.generator).natDegree = s.r ∧
    (∀ p : BitSeq, (computeOf p s.generator).length = s.r) ∧
    (∀ data rest : BitSeq, s.Presents data rest → data.length ≤ s.cfg.lmax →
      ∃ t, exec (.verify data.length) s = .next t ∧
        (s.r ≤ data.length → t.ph = .scan ∧ t.npos + s.r = data.length) ∧
        (data.length < s.r → t.ph = .idle ∧ t.err = .frameTooShort))

/-- R12: every step keeps `GV = 1 implies GEN[0] = 1 and R <= RMAX`; an empty or cleared-leading-bit sequence never sets GV; nothing
else of a generator is constrained. -/
def Obligations.GeneratorRegisterStaysValid : Prop :=
  (∀ s t : State, (s.gv = true → s.gen.head? = some true ∧ s.r ≤ s.cfg.rmax) → step s = .next t →
    (t.gv = true → t.gen.head? = some true ∧ t.r ≤ t.cfg.rmax)) ∧
  (∀ (s t : State) (n : Nat) (data rest : BitSeq), s.Presents data rest → data.length = n → data.head? ≠ some true →
    exec (.loadgen n) s = .next t → t.gv = s.gv) ∧
  (∀ (s : State) (tail rest : BitSeq), s.Presents (true :: tail) rest → tail.length ≤ s.cfg.rmax →
    ∃ t, exec (.loadgen (tail.length + 1)) s = .next t ∧ t.gv = true ∧ t.generator = true :: tail)

/-- R13: the only steps that write GEN, R or GV are the ACCEPT of a LOADGEN that succeeds, which replaces the polynomial, and a
reset, which clears GV. -/
def Obligations.OnlyLoadgenAndResetWriteGenerator : Prop :=
  ∀ s t : State, step s = .next t →
    s.SameGen t ∨
    (s.rst = true ∧ t.gv = false) ∨
    (s.rst = false ∧ s.ph = .idle ∧ ∃ (w : Header) (ws : List Header) (data rest : BitSeq),
      s.cmd = w :: ws ∧ decode w = .loadgen data.length ∧ s.din = data ++ rest ∧ data.head? = some true ∧
      t.gv = true ∧ t.generator = data ∧ t.err = .ok)

/-! ## The scan (41_divider, 10_state) -/

/-- R82: DIVSTEP tests the current cell at POS, XORs the generator into the window `[POS, POS+R]` iff it is 1, clears the tested cell,
advances POS by one, and writes nothing else. -/
def Obligations.DivstepProcessesOnePosition : Prop :=
  ∀ s : State, s.Inv → s.rst = false → s.ph = .scan → s.pos < s.npos →
    ∃ t, step s = .next t ∧ t.pos = s.pos + 1 ∧
      (∀ a, t.buf[a]? =
        if s.buf[s.pos]? = some true ∧ s.pos ≤ a ∧ a ≤ s.pos + s.r then
          some (xor (s.buf[a]?.getD false) (s.gen[a - s.pos]?.getD false))
        else s.buf[a]?) ∧
      t.buf[s.pos]? = some false ∧
      s.SameGen t ∧ t.len = s.len ∧ t.npos = s.npos ∧ t.ph = s.ph ∧ t.opl = s.opl ∧ t.err = s.err ∧ t.vok = s.vok ∧
      s.SameInputs t ∧ s.SameCommands t ∧ s.Silent t

/-- R15: ACCEPT sets POS to 0, every DIVSTEP advances it by one, a scan ends exactly at NPOS, and `POS <= NPOS <= LEN <= LMAX` throughout. -/
def Obligations.PositionAdvancesByOne : Prop :=
  ∀ s t : State, s.Inv → s.rst = false → step s = .next t →
    (s.ph = .idle → t.ph = .scan → t.pos = 0) ∧
    (s.ph = .scan → t.ph = .scan → t.pos = s.pos + 1) ∧
    (s.ph = .scan → (t.ph = .idle ↔ s.pos = s.npos)) ∧
    t.pos ≤ t.npos ∧ t.npos ≤ t.len ∧ t.len ≤ t.cfg.lmax

/-- Refinement of R80's function by the engine's steps (R81): from the loaded buffer, NPOS DIVSTEPs leave `divide(BUF, GEN)` in REM,
zeros before it, and every cell outside the buffer as it was. -/
def Obligations.ScanComputesDivide : Prop :=
  ∀ s : State, s.Inv → s.rst = false → s.ph = .scan → s.pos = 0 →
    ∃ t, runFor s.npos s = .next t ∧
      t.pos = s.npos ∧ t.remainder = divide s.buffer s.generator ∧
      (∀ a, a < s.npos → t.buf[a]? = some false) ∧ (∀ a, s.len ≤ a → t.buf[a]? = s.buf[a]?) ∧
      t.ph = .scan ∧ t.opl = s.opl ∧ t.len = s.len ∧ t.npos = s.npos ∧ t.err = s.err ∧ t.vok = s.vok ∧
      s.SameGen t ∧ s.SameInputs t ∧ s.SameCommands t ∧ s.Silent t

/-- The meaning of the scan as polynomial arithmetic (41_divider section 3, an inference the spec marks as its own): `divide` gives the
remainder of polynomial division, as exactly r bits. -/
def Obligations.DivideIsPolynomialRemainder : Prop :=
  ∀ b g : BitSeq, ValidGenerator g → g.length - 1 ≤ b.length →
    (divide b g).length = g.length - 1 ∧ poly (divide b g) = poly b %ₘ poly g

/-- Whole-machine safety: in a state of the invariant no step faults; every access is in bounds and reads written cells, and a scan
always has an enabled step (41_divider section 3, 60_exceptions section 3). -/
def Obligations.NoStepFaults : Prop :=
  ∀ s : State, s.Inv → ∀ f : Fault, step s ≠ .fault f

/-- What COMPLETE leaves: no cell of BUF holds a value and every read of one stops (10_state section 4, log 5); the generator, the inputs
and the channels towards the engine are unchanged. That OPL (log 14) and LEN, NPOS and POS (log 15) are unchanged is the model's
reading: the pseudocode of COMPLETE writes none of them. -/
def Obligations.CompleteFrame : Prop :=
  ∀ s : State, s.Inv → s.rst = false → s.ph = .scan → s.pos = s.npos →
    ∃ t, step s = .next t ∧ t.buf = [] ∧
      (∀ bound addr n, 0 < n → ∃ f, memRead t.buf bound addr n = .error f) ∧
      (∀ bound a, ∃ f, readCell t.buf bound a = .error f) ∧
      t.len = s.len ∧ t.npos = s.npos ∧ t.pos = s.pos ∧ t.opl = s.opl ∧
      s.SameGen t ∧ s.SameInputs t ∧ s.SameCommands t

/-! ## COMPUTE (42_compute) -/

/-- R90: ACCEPT of COMPUTE checks the generator, then the payload, and only then loads the payload and r zero bits and starts the
scan; a failing one changes nothing but ST.ERR. A payload of all zeros leaves the remainder zeros(r). -/
def Obligations.ComputeAcceptLoadsOrRejects : Prop :=
  (∀ (n : Nat) (g : BitSeq), computeOf (zeros n) g = zeros (g.length - 1)) ∧
  ∀ (s : State) (data rest : BitSeq), s.Presents data rest → data.length + s.r ≤ s.cfg.lmax →
    ∃ t, exec (.compute data.length) s = .next t ∧
      s.Consumed t rest ∧ s.SameGen t ∧ s.SameInputs t ∧ t.vok = s.vok ∧
      (s.gv = false →
        s.SameScan t ∧ t.ph = .idle ∧ t.err = .invalidGenerator ∧
        s.Answered t { status := .invalidGenerator, val := 0, data := [] }) ∧
      (s.gv = true → data = [] →
        s.SameScan t ∧ t.ph = .idle ∧ t.err = .emptyPayload ∧
        s.Answered t { status := .emptyPayload, val := 0, data := [] }) ∧
      (s.gv = true → data ≠ [] →
        t.buffer = data ++ zeros s.r ∧ (∀ a, data.length + s.r ≤ a → t.buf[a]? = s.buf[a]?) ∧
        t.len = data.length + s.r ∧ t.npos = data.length ∧ t.pos = 0 ∧ t.opl = .compute ∧ t.ph = .scan ∧
        t.busy = true ∧ t.err = s.err ∧ s.Silent t)

/-- COMPLETE of COMPUTE (42_compute) answers OK with VAL = R and exactly the R bits of REM, first element first; ST.VOK is unchanged; the
buffer holds no value afterwards (no cell is listed, log 5). -/
def Obligations.ComputeCompleteReturnsRemainder : Prop :=
  ∀ s : State, s.Inv → s.rst = false → s.ph = .scan → s.opl = .compute → s.pos = s.npos →
    ∃ t, step s = .next t ∧ t.ph = .idle ∧ t.err = .ok ∧ t.vok = s.vok ∧ s.SameGen t ∧ t.buf = [] ∧
      s.remainder.length = s.r ∧ s.Answered t { status := .ok, val := s.r, data := s.remainder }

/-- R92: a successful COMPUTE, ACCEPT to COMPLETE, carries exactly compute(DATA, GEN[0..R]), which has R bits; it takes one ACCEPT, one
DIVSTEP per payload bit and one COMPLETE. -/
def Obligations.ComputeCommandReturnsCompute : Prop :=
  ∀ (s : State) (p rest : BitSeq) (hs : List Header), s.Inv → s.rst = false → s.Presents p rest → s.gv = true → p ≠ [] →
    p.length < 2 ^ 30 → p.length + s.r ≤ s.cfg.lmax → s.cmd = encode (.compute p.length) :: hs →
    computeOf p s.generator = divide (p ++ zeros s.r) s.generator ∧ (computeOf p s.generator).length = s.r ∧
    ∃ t, runFor (p.length + 2) s = .next t ∧
      s.Answered t { status := .ok, val := s.r, data := computeOf p s.generator } ∧
      t.ph = .idle ∧ t.err = .ok ∧ t.vok = s.vok ∧ t.cmd = hs ∧ t.din = rest ∧ s.SameGen t ∧ s.SameInputs t

/-- compute as polynomial arithmetic (42_compute, the line of the whole-command function that the spec marks as derived). -/
def Obligations.ComputeIsShiftedRemainder : Prop :=
  ∀ p g : BitSeq, ValidGenerator g →
    poly (computeOf p g) = (poly p * Polynomial.X ^ (g.length - 1)) %ₘ poly g

/-- Sanity, tier 1: the corrected worked example (90_conflicts C1) and the sibling for which the printed remainder is right. -/
def Obligations.CorrectedWorkedExample : Prop :=
  computeOf [true, true, false, true, false, true, true, true, true, true] [true, false, false, true, true] =
    [false, false, true, false] ∧
  computeOf [true, true, false, true, false, true, true, false, true, true] [true, false, false, true, true] =
    [true, true, true, false] ∧
  verifyOf [true, true, false, true, false, true, true, true, true, true, false, false, true, false]
    [true, false, false, true, true] = true ∧
  verifyOf [true, true, false, true, false, true, true, true, true, true, true, true, true, false]
    [true, false, false, true, true] = false

/-! ## VERIFY and the detection properties (43_verify) -/

/-- R100: ACCEPT of VERIFY checks the generator, then the frame's length, and only then loads the whole frame and starts the scan; a
failing one changes nothing but ST.ERR. A frame of exactly R bits is accepted, with no position to scan and the frame as remainder. -/
def Obligations.VerifyAcceptLoadsOrRejects : Prop :=
  ∀ (s : State) (data rest : BitSeq), s.Presents data rest → data.length ≤ s.cfg.lmax →
    ∃ t, exec (.verify data.length) s = .next t ∧
      s.Consumed t rest ∧ s.SameGen t ∧ s.SameInputs t ∧ t.vok = s.vok ∧
      (s.gv = false →
        s.SameScan t ∧ t.ph = .idle ∧ t.err = .invalidGenerator ∧
        s.Answered t { status := .invalidGenerator, val := 0, data := [] }) ∧
      (s.gv = true → data.length < s.r →
        s.SameScan t ∧ t.ph = .idle ∧ t.err = .frameTooShort ∧
        s.Answered t { status := .frameTooShort, val := 0, data := [] }) ∧
      (s.gv = true → s.r ≤ data.length →
        t.buffer = data ∧ (∀ a, data.length ≤ a → t.buf[a]? = s.buf[a]?) ∧
        t.len = data.length ∧ t.npos = data.length - s.r ∧ t.pos = 0 ∧ t.opl = .verify ∧ t.ph = .scan ∧
        t.err = s.err ∧ s.Silent t) ∧
      (s.gv = true → data.length = s.r → t.pos = t.npos ∧ t.remainder = data)

/-- R101: COMPLETE of VERIFY answers OK with VAL = 1 iff every bit of REM is 0, no DOUT, and mirrors it in ST.VOK; with R = 0 it is
always true. -/
def Obligations.VerifyCompleteTestsRemainder : Prop :=
  ∀ s : State, s.Inv → s.rst = false → s.ph = .scan → s.opl = .verify → s.pos = s.npos →
    ∃ t, step s = .next t ∧ t.ph = .idle ∧ t.err = .ok ∧ s.SameGen t ∧
      t.vok = allZero s.remainder ∧
      s.Answered t { status := .ok, val := if allZero s.remainder = true then 1 else 0, data := [] } ∧
      (allZero s.remainder = true ↔ s.remainder = zeros s.r) ∧ (s.r = 0 → t.vok = true)

/-- R102: a successful VERIFY, ACCEPT to COMPLETE, carries exactly verify(DATA, GEN[0..R]) = allzero(divide(DATA, GEN[0..R])), dividing
the frame as it stands; a false result is carried with OK. -/
def Obligations.VerifyCommandAnswersVerify : Prop :=
  ∀ (s : State) (f rest : BitSeq) (hs : List Header), s.Inv → s.rst = false → s.Presents f rest → s.gv = true →
    s.r ≤ f.length → f.length < 2 ^ 30 → f.length ≤ s.cfg.lmax → s.cmd = encode (.verify f.length) :: hs →
    verifyOf f s.generator = allZero (divide f s.generator) ∧
    ∃ t, runFor (f.length - s.r + 2) s = .next t ∧
      s.Answered t { status := .ok, val := if verifyOf f s.generator = true then 1 else 0, data := [] } ∧
      t.vok = verifyOf f s.generator ∧
      t.ph = .idle ∧ t.err = .ok ∧ t.cmd = hs ∧ t.din = rest ∧ s.SameGen t ∧ s.SameInputs t

/-- verify as divisibility (43_verify, the line of the whole-command function that the spec marks as derived). -/
def Obligations.VerifyIsDivisibility : Prop :=
  ∀ f g : BitSeq, ValidGenerator g → g.length - 1 ≤ f.length → (verifyOf f g = true ↔ poly g ∣ poly f)

/-- How VERIFY relates to COMPUTE (43_verify, the relation the spec derives beside the dead branch): for a frame longer than r bits it is
a comparison with the received checksum. -/
def Obligations.VerifyComparesReceivedChecksum : Prop :=
  ∀ f g : BitSeq, ValidGenerator g → g.length - 1 < f.length →
    (verifyOf f g = true ↔
      computeOf (f.take (f.length - (g.length - 1))) g = f.drop (f.length - (g.length - 1)))

/-- R105: the round trip, as functions and in command terms: LOADGEN g and COMPUTE p give p's remainder c on DOUT, and the VERIFY of
the frame p ++ c that the host then delivers answers OK true. -/
def Obligations.RoundTripAlwaysVerifies : Prop :=
  (∀ p g : BitSeq, ValidGenerator g → p ≠ [] → verifyOf (mkFrame p (computeOf p g)) g = true) ∧
  (∀ (s : State) (p g : BitSeq), s.Inv → s.rst = false → s.rspReady = true → s.runEnded = true → s.din = [] →
    ValidGenerator g → p ≠ [] → g.length - 1 ≤ s.cfg.rmax → p.length + (g.length - 1) ≤ s.cfg.lmax →
    p.length + (g.length - 1) < 2 ^ 30 →
    ∃ (t u : State) (c : BitSeq),
      runFor (p.length + 3)
        ((s.deliver { instr := .loadgen g.length, data := g }).deliver { instr := .compute p.length, data := p }) = .next t ∧
      t.dout = s.dout ++ c ∧ c.length = g.length - 1 ∧
      runFor (p.length + 2)
        (t.deliver { instr := .verify (mkFrame p c).length, data := mkFrame p c }) = .next u ∧
      u.rsp = t.rsp ++ [Response.header { status := .ok, val := 1, data := [] }] ∧ u.vok = true ∧ u.err = .ok)

/-- The undetected-error characterisation (43_verify, with the polarity corrected by 90_conflicts C2): a corruption of a valid frame is
undetected iff its error polynomial is divisible by the generator. -/
def Obligations.UndetectedIffErrorDivisible : Prop :=
  ∀ f e g : BitSeq, ValidGenerator g → g.length - 1 ≤ f.length → e.length = f.length → verifyOf f g = true →
    (verifyOf (xorSeq f e) g = true ↔ poly g ∣ poly e)

/-- Single-bit errors (43_verify, restricted by 90_conflicts C4): with at least two set generator bits every single flip is detected; with
a monomial generator every flip before the last r bits goes undetected. -/
def Obligations.SingleBitErrors : Prop :=
  (∀ (f g : BitSeq) (a z : Nat), ValidGenerator g → g.length - 1 ≤ f.length → f.length = a + 1 + z → verifyOf f g = true →
    2 ≤ g.count true → verifyOf (xorSeq f (zeros a ++ [true] ++ zeros z)) g = false) ∧
  (∀ (f : BitSeq) (r a z : Nat), r ≤ f.length → f.length = a + 1 + z → a < f.length - r →
    verifyOf f (true :: zeros r) = true → verifyOf (xorSeq f (zeros a ++ [true] ++ zeros z)) (true :: zeros r) = true)

/-- Short bursts (43_verify, restricted by 90_conflicts C5): with a set constant term and R >= 1, every burst of length 1 to R is
detected. -/
def Obligations.ShortBurstsAreDetected : Prop :=
  ∀ (f e g : BitSeq) (k : Nat), ValidGenerator g → g.getLast? = some true → g.length - 1 ≤ f.length →
    1 ≤ k → k ≤ g.length - 1 → Burst k f.length e → verifyOf f g = true → verifyOf (xorSeq f e) g = false

/-- The smallest escaping pattern (43_verify, the remark on long bursts): the generator itself, placed anywhere in a valid frame, goes
undetected. -/
def Obligations.ShiftedGeneratorIsUndetected : Prop :=
  ∀ (f g : BitSeq) (a z : Nat), ValidGenerator g → f.length = a + g.length + z → verifyOf f g = true →
    verifyOf (xorSeq f (zeros a ++ g ++ zeros z)) g = true

/-! ## Errors (60_exceptions) -/

/-- R123: without a generator COMPUTE and VERIFY report InvalidGenerator whatever else is wrong, and an empty LOADGEN reports it too. -/
def Obligations.GeneratorCheckComesFirst : Prop :=
  ∀ (s : State) (data rest : BitSeq), s.Presents data rest →
    (s.gv = false → data.length + s.r ≤ s.cfg.lmax →
      ∃ t, exec (.compute data.length) s = .next t ∧ t.err = .invalidGenerator ∧
        s.Answered t { status := .invalidGenerator, val := 0, data := [] }) ∧
    (s.gv = false → data.length ≤ s.cfg.lmax →
      ∃ t, exec (.verify data.length) s = .next t ∧ t.err = .invalidGenerator ∧
        s.Answered t { status := .invalidGenerator, val := 0, data := [] }) ∧
    (data = [] →
      ∃ t, exec (.loadgen data.length) s = .next t ∧ t.err = .invalidGenerator ∧
        s.Answered t { status := .invalidGenerator, val := 0, data := [] })

/-- R124: raise writes ST.ERR, gives the response (code, 0, no bits), and keeps every other register; a command that fails does exactly
this, PH staying IDLE, its header and operand bits consumed. -/
def Obligations.RaiseWritesOnlyErr : Prop :=
  (∀ (s : State) (e : Status),
    ∃ t, raise e s = .next t ∧ t.err = e ∧ s.Answered t { status := e, val := 0, data := [] } ∧
      t.ph = s.ph ∧ t.vok = s.vok ∧ s.SameGen t ∧ s.SameScan t ∧ s.SameInputs t ∧ s.SameCommands t) ∧
  (∀ (i : Instr) (s t : State) (data rest : BitSeq), s.Presents data rest → data.length = i.operandLen →
    exec i s = .next t → t.ph = .idle → t.err ≠ .ok →
      s.Answered t { status := t.err, val := 0, data := [] } ∧ t.vok = s.vok ∧ s.SameGen t ∧ s.SameScan t ∧
      s.SameInputs t ∧ s.Consumed t rest)

/-- R125: a command that ends in an error in its ACCEPT step has written none of GEN, R, GV, BUF, LEN, NPOS, POS, OPL, PH; once a scan
has begun no error can arise. -/
def Obligations.ErrorsArePrecise : Prop :=
  (∀ (i : Instr) (s t : State) (data rest : BitSeq), s.Presents data rest → data.length = i.operandLen →
    exec i s = .next t → t.ph = .idle → t.err ≠ .ok → s.SameGen t ∧ s.SameScan t ∧ t.ph = s.ph ∧ t.vok = s.vok) ∧
  (∀ s : State, s.Inv → s.rst = false → s.ph = .scan →
    ∃ t, step s = .next t ∧ (t.ph = .scan → t.err = s.err) ∧ (t.ph = .idle → t.err = .ok))

/-- The table of causes (60_exceptions section 1): no command ends in a status outside its row, whether it completes in its ACCEPT step
or, after a scan, in COMPLETE, which ends in OK; DIVSTEP writes no status. -/
def Obligations.EachCommandRaisesOnlyItsErrors : Prop :=
  (∀ s t : State, s.rst = false → s.pend = none → s.ph = .scan → step s = .next t →
    (t.ph = .scan → t.err = s.err) ∧ (t.ph = .idle → t.err = .ok)) ∧
  ∀ (i : Instr) (s t : State) (data rest : BitSeq), s.Presents data rest → data.length = i.operandLen →
    exec i s = .next t → t.ph = .idle →
    match i with
    | .loadgen _ => t.err = .ok ∨ t.err = .invalidGenerator
    | .degree => t.err = .ok ∨ t.err = .invalidGenerator
    | .compute _ => t.err = .invalidGenerator ∨ t.err = .emptyPayload
    | .verify _ => t.err = .invalidGenerator ∨ t.err = .frameTooShort

/-- After an error response the engine accepts the next command at once (60_exceptions section 4). -/
def Obligations.ReadyAfterError : Prop :=
  ∀ (i : Instr) (s t : State) (data rest : BitSeq) (w : Header) (ws : List Header), s.Presents data rest →
    data.length = i.operandLen → s.rst = false → s.rspReady = true → exec i s = .next t → t.ph = .idle → t.err ≠ .ok →
    s.cmd.tail = w :: ws → t.canAccept = true ∧ step t = exec (decode w) t

/-- Capacity (60_exceptions section 8): exec refuses exactly the commands that ask for more cells than the block has, under the one name
overCapacity, and never faults. That such a command is refused also when GV = 0 or the generator's leading bit is clear is the model's
reading, log 3, and that it is refused only once it can be accepted and its operand is delivered is log 17. -/
def Obligations.OverCapacityIsRefused : Prop :=
  (∀ (i : Instr) (s : State) (q : Refusal), exec i s = .refused q ↔
    q = .overCapacity ∧ (∃ data rest, s.Presents data rest ∧ data.length = i.operandLen) ∧
      match i with
      | .loadgen n => s.cfg.rmax < n - 1
      | .degree => False
      | .compute n => s.cfg.lmax < n + s.r
      | .verify n => s.cfg.lmax < n) ∧
  (∀ (i : Instr) (s : State) (f : Fault), exec i s ≠ .fault f)

/-- With the largest legal capacity, the one State.reset has (DESIGN CHOICE, log 2), no command a header can encode is refused. That this
includes LOADGEN with LEN = 2^30 - 1, which 95_test_vectors 2.7 calls over any RMAX, is the model's reading, log 4. -/
def Obligations.LargestCapacityNeverRefuses : Prop :=
  ∀ (i : Instr) (s : State) (q : Refusal), s.Inv → s.cfg = Config.largest → i.wf = true → exec i s ≠ .refused q

/-! ## Status register, reset, host interface (10_state, 70_reset_and_hazards) -/

/-- R19: the fields of the status port, its reserved bits, its value at reset, and that no host action but a reset request served by a
step can change it. -/
def Obligations.StatusPortLayout : Prop :=
  (∀ s : State,
    s.statusPort.extractLsb' 0 2 = s.err.code ∧ s.statusPort.getLsbD 2 = s.vok ∧ s.statusPort.getLsbD 3 = s.gv ∧
    s.statusPort.getLsbD 4 = decide (s.ph = .scan) ∧ s.statusPort.extractLsb' 5 27 = 0#27) ∧
  (∀ (s : State) (c : Command) (b : Bool),
    (s.deliver c).statusPort = s.statusPort ∧ s.requestReset.statusPort = s.statusPort ∧
    (s.setReady b).statusPort = s.statusPort) ∧
  State.reset.statusPort = 0#32

/-- R20: each completed command overwrites ST.ERR with the status of its response, a successful VERIFY overwrites ST.VOK, and every
other command leaves ST.VOK unchanged; a step that completes no command writes neither. -/
def Obligations.StatusOverwrittenByEachCompletion : Prop :=
  ∀ s t : State, s.Inv → s.rst = false → s.pend = none → step s = .next t →
    (s.Silent t ∧ t.err = s.err ∧ t.vok = s.vok) ∨
    (∃ m : Response, s.Answered t m ∧ t.err = m.status ∧ t.ph = .idle ∧
      (s.ph = .scan ∧ s.opl = .verify → m.status = .ok ∧ t.vok = allZero s.remainder) ∧
      (¬(s.ph = .scan ∧ s.opl = .verify) → t.vok = s.vok))

/-- R140: serving RST puts every register to which the spec gives a reset value to it, emits no response, and leaves the engine in IDLE,
able to accept a first header. -/
def Obligations.ResetEntersResetState : Prop :=
  (∀ s : State, s.rst = true → s.partlyDelivered = false →
    ∃ t, step s = .next t ∧ t.gv = false ∧ t.r = 0 ∧ t.ph = .idle ∧ t.len = 0 ∧ t.npos = 0 ∧ t.pos = 0 ∧
      t.statusPort = 0#32 ∧ t.pend = none ∧ t.rsp = s.rsp ∧ t.dout = s.dout ∧ t.canAccept = true) ∧
  State.reset.gv = false ∧ State.reset.r = 0 ∧ State.reset.ph = .idle ∧ State.reset.len = 0 ∧ State.reset.npos = 0 ∧
  State.reset.pos = 0 ∧ State.reset.statusPort = 0#32 ∧ State.reset.pend = none ∧ State.reset.canAccept = true

/-- Reset in a scan abandons the command without a response; in the middle of a frame's delivery the model refuses (the model's choices
of log 12, on 70_reset_and_hazards section 1). In whatever phase a reset is served, what stands on CMD and DIN, what the host has
received and its readiness survive it, a waiting response is dropped, and serving the request clears it (the model's choice, log 11); the
parameters are kept (log 2). -/
def Obligations.ResetDuringScanAbandonsCommand : Prop :=
  ∀ s : State, s.rst = true →
    (s.partlyDelivered = false →
      ∃ t, step s = .next t ∧ t.rst = false ∧ s.SameCommands t ∧ t.cfg = s.cfg ∧ t.rspReady = s.rspReady ∧
        t.rsp = s.rsp ∧ t.dout = s.dout ∧ t.pend = none ∧ t.ph = .idle) ∧
    (s.partlyDelivered = true → step s = .refused .resetDuringDelivery) ∧
    (s.ph = .scan → s.partlyDelivered = false →
      ∃ t, step s = .next t ∧ t.ph = .idle ∧ t.pend = none ∧ t.rsp = s.rsp ∧ t.dout = s.dout ∧ t.rst = false ∧
        s.SameCommands t)

/-- R146: while a scan is in progress a presented command is held, neither dropped nor interleaved; the generator stays the same; the
scan's own COMPLETE comes after exactly `NPOS - POS` more DIVSTEPs, gives one response, and the held command is then accepted. No
command is accepted while a response waits. -/
def Obligations.CommandsAreHeldDuringScan : Prop :=
  (∀ s : State, s.Inv → s.rst = false → s.ph = .scan →
    (∀ k, k ≤ s.npos - s.pos →
      ∃ u, runFor k s = .next u ∧ u.ph = .scan ∧ s.SameCommands u ∧ s.SameGen u ∧ s.Silent u) ∧
    ∃ (t : State) (m : Response), runFor (s.npos - s.pos + 1) s = .next t ∧
      t.ph = .idle ∧ s.SameCommands t ∧ s.SameGen t ∧ s.Answered t m ∧ m.status = .ok ∧
      (∀ (w : Header) (ws : List Header), s.rspReady = true → s.cmd = w :: ws → step t = exec (decode w) t)) ∧
  (∀ (i : Instr) (s : State), s.ph = .scan ∨ s.pend ≠ none → exec i s = .next s)

/-- An idle engine without a command, a command whose operand bits have not all been delivered, and a response the host does not take:
the engine waits, nothing changes (the model's form of waiting, log 10). -/
def Obligations.EngineWaitsForTheHost : Prop :=
  (∀ s : State, s.rst = false → s.pend = none → s.ph = .idle → s.cmd = [] → step s = .next s) ∧
  (∀ (i : Instr) (s : State), s.din.length < i.operandLen → exec i s = .next s) ∧
  (∀ (s : State) (m : Response), s.rst = false → s.pend = some m → s.rspReady = false → step s = .next s)

/-- A waiting response goes out unchanged once the host is ready (the model's waiting response, log 9). -/
def Obligations.WaitingResponseGoesOut : Prop :=
  ∀ (s : State) (m : Response), s.rst = false → s.pend = some m → s.rspReady = true →
    ∃ t, step s = .next t ∧ t.rsp = s.rsp ++ [m.header] ∧ t.dout = s.dout ++ m.data ∧ t.pend = none ∧
      t.ph = s.ph ∧ t.err = s.err ∧ t.vok = s.vok ∧ s.SameGen t ∧ s.SameScan t ∧ s.SameInputs t ∧ s.SameCommands t

/-- All LEN operand bits and the header leave their channels, whether the command succeeds or fails (30_encoding section 2). -/
def Obligations.WholeFrameIsConsumed : Prop :=
  ∀ (i : Instr) (s t : State) (data rest : BitSeq), s.Presents data rest → data.length = i.operandLen →
    exec i s = .next t → s.Consumed t rest

/-- Progress with its bound (70_reset_and_hazards section 5): every fully delivered command within capacity is answered, with one tabled
response, after at most LEN + 2 steps. -/
def Obligations.DeliveredCommandIsAnswered : Prop :=
  ∀ (i : Instr) (s : State) (data rest : BitSeq) (hs : List Header), s.Inv → s.rst = false → s.Presents data rest →
    data.length = i.operandLen → i.wf = true → s.cmd = encode i :: hs →
    s.fits i = true →
    ∃ (k : Nat) (t : State) (m : Response), k ≤ data.length + 2 ∧ runFor k s = .next t ∧
      s.Answered t m ∧ m.wf = true ∧ t.err = m.status ∧ t.ph = .idle ∧ t.cmd = hs ∧ t.din = rest

/-- Determinism of the commands (42_compute R92's last sentences, 20_memory R42): two engines that hold the same generator and are given
the same command answer alike, whatever else their registers, stale cells and channels hold. -/
def Obligations.ResultDependsOnlyOnGeneratorAndOperand : Prop :=
  ∀ (i : Instr) (s₁ s₂ : State) (data rest₁ rest₂ : BitSeq) (hs₁ hs₂ : List Header), s₁.Inv → s₂.Inv →
    s₁.rst = false → s₂.rst = false → s₁.Presents data rest₁ → s₂.Presents data rest₂ →
    data.length = i.operandLen → i.wf = true → s₁.cmd = encode i :: hs₁ → s₂.cmd = encode i :: hs₂ →
    s₁.gv = s₂.gv → s₁.r = s₂.r → (s₁.gv = true → s₁.generator = s₂.generator) →
    s₁.fits i = true → s₂.fits i = true →
    ∃ (k : Nat) (t₁ t₂ : State) (m : Response), runFor k s₁ = .next t₁ ∧ runFor k s₂ = .next t₂ ∧
      s₁.Answered t₁ m ∧ s₂.Answered t₂ m ∧ t₁.ph = .idle ∧ t₂.ph = .idle ∧ t₁.err = t₂.err

/-- When the header first on CMD decodes to a command, an idle engine's step is exec of it; nothing is wrapped around exec. -/
def Obligations.StepRunsTheDecodedCommand : Prop :=
  ∀ (s : State) (w : Header) (ws : List Header), s.rst = false → s.pend = none → s.ph = .idle → s.cmd = w :: ws →
    (decode w).wf = true ∧ step s = exec (decode w) s

/-- A header placed by withFetchWord is run by the very next step (log 8). -/
def Obligations.PlacedHeaderRuns : Prop :=
  ∀ (s : State) (nbits w : Nat) (i : Instr), decodeTableWord nbits w = some i →
    step (s.withFetchWord nbits w) = exec i (s.withFetchWord nbits w) ∧
    (s.withFetchWord nbits w).Presents (zeros i.operandLen) s.din

/-- The invariant holds at reset, for every legal capacity, State.reset among them. -/
def Obligations.InvariantHoldsAtReset : Prop :=
  (∀ c : Config, c.wf = true → (State.resetWith c).Inv) ∧ State.reset.Inv

/-- Every step keeps the invariant: the generator register stays valid, the scan registers stay in order and in bounds, cells behind POS
stay 0, the cells stay in their address spaces, a waiting response stays a tabled one. -/
def Obligations.EveryStepKeepsInvariant : Prop :=
  ∀ s t : State, s.Inv → step s = .next t → t.Inv

/-- What the host does between steps keeps the invariant. -/
def Obligations.HostActionsKeepInvariant : Prop :=
  ∀ (s : State) (c : Command) (b : Bool), s.Inv → (s.deliver c).Inv ∧ s.requestReset.Inv ∧ (s.setReady b).Inv

/-- The working buffer is transient (10_state section 4): kept by every step and every host action, and true at reset, that no cell of
BUF holds a value in IDLE and exactly the LEN cells of the command in progress hold one in SCAN. A cell without a value is one the
list does not reach: the model's form, log 5. -/
def Obligations.BufferIsTransient : Prop :=
  (∀ s t : State, s.BufTransient → step s = .next t → t.BufTransient) ∧
  (∀ (s : State) (c : Command) (b : Bool), s.BufTransient →
    (s.deliver c).BufTransient ∧ s.requestReset.BufTransient ∧ (s.setReady b).BufTransient) ∧
  (∀ c : Config, (State.resetWith c).BufTransient) ∧ State.reset.BufTransient
end

