-- ==== Sys2Proof/Laws/Decode.lean ====
section
/-! SUPPORT. The fields of a header put together from its two fields, and what the decoder makes of each opcode. -/

namespace Sys2Proof

theorem opcField_append (k : BitVec 2) (l : BitVec 30) : opcField (k ++ l) = k := by
  rw [opcField, BitVec.extractLsb'_append_eq_left]

theorem lenField_append (k : BitVec 2) (l : BitVec 30) : lenField (k ++ l) = l.toNat := by
  rw [lenField, BitVec.extractLsb'_append_eq_right]

/-- A header is its two fields. -/
theorem header_eq_append (h : Header) : h = opcField h ++ BitVec.ofNat 30 (lenField h) := by
  rw [opcField, lenField, BitVec.ofNat_toNat, BitVec.setWidth_eq]
  exact (BitVec.eq_of_getLsbD_eq fun i hi => by
    simp only [BitVec.getLsbD_append, BitVec.getLsbD_extractLsb']
    split
    · simp [*]
    · have : i - 30 < 2 := by omega
      have : 30 + (i - 30) = i := by omega
      simp [*])

theorem lenField_lt (h : Header) : lenField h < 2 ^ 30 := (h.extractLsb' 0 30).isLt

theorem decode_of_opc_zero {h : Header} (ho : opcField h = 0b00#2) : decode h = .loadgen (lenField h) := by
  simp [decode, ho]

theorem decode_of_opc_one {h : Header} (ho : opcField h = 0b01#2) : decode h = .degree := by
  simp [decode, ho]

theorem decode_of_opc_two {h : Header} (ho : opcField h = 0b10#2) : decode h = .compute (lenField h) := by
  simp [decode, ho]

theorem decode_of_opc_three {h : Header} (ho : opcField h = 0b11#2) : decode h = .verify (lenField h) := by
  simp [decode, ho]

/-- The four values of OPC (R52). -/
theorem opcField_cases (h : Header) :
    opcField h = 0b00#2 ∨ opcField h = 0b01#2 ∨ opcField h = 0b10#2 ∨ opcField h = 0b11#2 := by
  have : ∀ k : BitVec 2, k = 0b00#2 ∨ k = 0b01#2 ∨ k = 0b10#2 ∨ k = 0b11#2 := by decide
  exact this _

end Sys2Proof
end

