-- ==== Sys2Proof/Laws/Operands.lean ====
section
/-! SUPPORT. The small lemmas of bit sequences and cell accesses: lengths, what each cell holds after a store, and when an access
succeeds. -/

namespace Sys2Proof.Machine

@[simp] theorem zeros_length (n : Nat) : (zeros n).length = n := List.length_replicate

@[simp] theorem xorSeq_length (a b : BitSeq) : (xorSeq a b).length = min a.length b.length := List.length_zipWith

theorem zeros_getElem? (n a : Nat) : (zeros n)[a]? = if a < n then some false else none := List.getElem?_replicate

theorem xorSeq_getElem? {a b : BitSeq} (h : a.length = b.length) (i : Nat) :
    (xorSeq a b)[i]? = if i < a.length then some (xor (a[i]?.getD false) (b[i]?.getD false)) else none := by
  rw [xorSeq, List.getElem?_zipWith]
  by_cases hi : i < a.length
  · simp [hi, (h ▸ hi : i < b.length)]
  · simp [hi]

@[simp] theorem allZero_nil : allZero [] = true := rfl

theorem allZero_iff (s : BitSeq) : allZero s = true ↔ s = zeros s.length := by
  simp [allZero, zeros, List.eq_replicate_iff]

/-- A store that starts inside the listed cells makes the list no longer than it needs to be. -/
theorem storeAt_length {addr : Nat} {v cells : BitSeq} (h : addr ≤ cells.length) :
    (storeAt addr v cells).length = max cells.length (addr + v.length) := by
  simp only [storeAt, List.length_append, List.length_take, List.length_drop]; omega

/-- A store of the same extent keeps the length. -/
theorem storeAt_length_of_le {addr : Nat} {v cells : BitSeq} (h : addr + v.length ≤ cells.length) :
    (storeAt addr v cells).length = cells.length := by
  rw [storeAt_length (by omega)]; omega

/-- What a store does to every cell: the written cells hold `v`, every other cell keeps what it held. -/
theorem storeAt_getElem? {addr : Nat} {v cells : BitSeq} (h : addr ≤ cells.length) (a : Nat) :
    (storeAt addr v cells)[a]? = if addr ≤ a ∧ a < addr + v.length then v[a - addr]? else cells[a]? := by
  have hl : (cells.take addr).length = addr := by simp [h]
  rw [storeAt, List.append_assoc]
  by_cases h1 : a < addr
  · rw [List.getElem?_append_left (by omega), List.getElem?_take_of_lt h1, if_neg (by omega)]
  · rw [List.getElem?_append_right (by omega), hl]
    by_cases h2 : a < addr + v.length
    · rw [List.getElem?_append_left (by omega), if_pos ⟨by omega, h2⟩]
    · rw [List.getElem?_append_right (by omega), List.getElem?_drop, if_neg (by omega)]
      congr 1; omega

@[simp] theorem storeAt_zero_take (v cells : BitSeq) : (storeAt 0 v cells).take v.length = v := by simp [storeAt]

@[simp] theorem storeAt_zero_drop (v cells : BitSeq) : (storeAt 0 v cells).drop v.length = cells.drop v.length := by
  simp [storeAt]

/-- A whole operand is taken exactly when DIN starts with it. -/
theorem takeOperand_eq_some {n : Nat} {din d r : BitSeq} :
    takeOperand n din = some (d, r) ↔ din = d ++ r ∧ d.length = n := by
  unfold takeOperand
  constructor
  · intro h
    split at h
    · simp only [Option.some.injEq, Prod.mk.injEq] at h
      obtain ⟨rfl, rfl⟩ := h
      exact ⟨(List.take_append_drop n din).symm, by simp; omega⟩
    · cases h
  · rintro ⟨rfl, rfl⟩; simp

theorem takeOperand_eq_none {n : Nat} {din : BitSeq} : takeOperand n din = none ↔ din.length < n := by
  unfold takeOperand; split <;> simp <;> omega

@[simp] theorem takeOperand_append (d r : BitSeq) : takeOperand d.length (d ++ r) = some (d, r) :=
  takeOperand_eq_some.2 ⟨rfl, rfl⟩

/-- When a cell reads, and as what. -/
theorem readCell_eq_ok {cells : BitSeq} {bound a : Nat} {b : Bool} :
    readCell cells bound a = .ok b ↔ a < bound ∧ cells[a]? = some b := by
  unfold readCell
  split
  · simp; omega
  · split <;> simp_all

/-- When MemRead succeeds, and with what. -/
theorem memRead_eq_ok {cells : BitSeq} {bound addr n : Nat} {v : BitSeq} :
    memRead cells bound addr n = .ok v ↔
      addr + n ≤ bound ∧ addr + n ≤ cells.length ∧ v = (cells.drop addr).take n := by
  unfold memRead
  split
  · simp; omega
  · split
    · simp; omega
    · simp only [Except.ok.injEq, eq_comm (a := v)]
      constructor
      · exact fun h => ⟨by omega, by omega, h⟩
      · exact fun h => h.2.2

/-- When MemWrite succeeds, and what it leaves. -/
theorem memWrite_eq_ok {cells : BitSeq} {bound addr : Nat} {v w : BitSeq} :
    memWrite cells bound addr v = .ok w ↔
      addr + v.length ≤ bound ∧ addr ≤ cells.length ∧ w = storeAt addr v cells := by
  unfold memWrite
  split
  · simp; omega
  · split
    · simp; omega
    · simp only [Except.ok.injEq, eq_comm (a := w)]
      constructor
      · exact fun h => ⟨by omega, by omega, h⟩
      · exact fun h => h.2.2

/-- MemWrite keeps the cells inside an address space that holds the buffer. -/
theorem memWrite_length_le {cells : BitSeq} {bound addr size : Nat} {v w : BitSeq}
    (h : memWrite cells bound addr v = .ok w) (hb : bound ≤ size) (hc : cells.length ≤ size) : w.length ≤ size := by
  obtain ⟨h1, h2, rfl⟩ := memWrite_eq_ok.1 h
  rw [storeAt_length h2]; omega

/-- The load of an operand keeps the cells inside an address space the operand fits. -/
theorem storeAt_zero_length_le {size : Nat} {v cells : BitSeq} (hv : v.length ≤ size) (hc : cells.length ≤ size) :
    (storeAt 0 v cells).length ≤ size := by
  rw [storeAt_length (Nat.zero_le _)]; omega

end Sys2Proof.Machine
end

