-- ==== Sys2Proof/Laws/State.lean ====
section
/-! SUPPORT. One lemma per field per update of the state, each true by rfl, so that no proof unfolds a record update; then the
same for the two completions. -/

namespace Sys2Proof.Machine

section consume
variable (s : State) (rest : BitSeq)
@[simp] theorem State.consume_cfg : (s.consume rest).cfg = s.cfg := rfl
@[simp] theorem State.consume_gen : (s.consume rest).gen = s.gen := rfl
@[simp] theorem State.consume_r : (s.consume rest).r = s.r := rfl
@[simp] theorem State.consume_gv : (s.consume rest).gv = s.gv := rfl
@[simp] theorem State.consume_buf : (s.consume rest).buf = s.buf := rfl
@[simp] theorem State.consume_len : (s.consume rest).len = s.len := rfl
@[simp] theorem State.consume_npos : (s.consume rest).npos = s.npos := rfl
@[simp] theorem State.consume_pos : (s.consume rest).pos = s.pos := rfl
@[simp] theorem State.consume_ph : (s.consume rest).ph = s.ph := rfl
@[simp] theorem State.consume_opl : (s.consume rest).opl = s.opl := rfl
@[simp] theorem State.consume_err : (s.consume rest).err = s.err := rfl
@[simp] theorem State.consume_vok : (s.consume rest).vok = s.vok := rfl
@[simp] theorem State.consume_cmd : (s.consume rest).cmd = s.cmd.tail := rfl
@[simp] theorem State.consume_din : (s.consume rest).din = rest := rfl
@[simp] theorem State.consume_rsp : (s.consume rest).rsp = s.rsp := rfl
@[simp] theorem State.consume_dout : (s.consume rest).dout = s.dout := rfl
@[simp] theorem State.consume_pend : (s.consume rest).pend = s.pend := rfl
@[simp] theorem State.consume_rspReady : (s.consume rest).rspReady = s.rspReady := rfl
@[simp] theorem State.consume_rst : (s.consume rest).rst = s.rst := rfl
end consume

section setErr
variable (s : State) (e : Status)
@[simp] theorem State.setErr_cfg : (s.setErr e).cfg = s.cfg := rfl
@[simp] theorem State.setErr_gen : (s.setErr e).gen = s.gen := rfl
@[simp] theorem State.setErr_r : (s.setErr e).r = s.r := rfl
@[simp] theorem State.setErr_gv : (s.setErr e).gv = s.gv := rfl
@[simp] theorem State.setErr_buf : (s.setErr e).buf = s.buf := rfl
@[simp] theorem State.setErr_len : (s.setErr e).len = s.len := rfl
@[simp] theorem State.setErr_npos : (s.setErr e).npos = s.npos := rfl
@[simp] theorem State.setErr_pos : (s.setErr e).pos = s.pos := rfl
@[simp] theorem State.setErr_ph : (s.setErr e).ph = s.ph := rfl
@[simp] theorem State.setErr_opl : (s.setErr e).opl = s.opl := rfl
@[simp] theorem State.setErr_err : (s.setErr e).err = e := rfl
@[simp] theorem State.setErr_vok : (s.setErr e).vok = s.vok := rfl
@[simp] theorem State.setErr_cmd : (s.setErr e).cmd = s.cmd := rfl
@[simp] theorem State.setErr_din : (s.setErr e).din = s.din := rfl
@[simp] theorem State.setErr_rsp : (s.setErr e).rsp = s.rsp := rfl
@[simp] theorem State.setErr_dout : (s.setErr e).dout = s.dout := rfl
@[simp] theorem State.setErr_pend : (s.setErr e).pend = s.pend := rfl
@[simp] theorem State.setErr_rspReady : (s.setErr e).rspReady = s.rspReady := rfl
@[simp] theorem State.setErr_rst : (s.setErr e).rst = s.rst := rfl
end setErr

section emit
variable (s : State) (m : Response)
@[simp] theorem State.emit_cfg : (s.emit m).cfg = s.cfg := rfl
@[simp] theorem State.emit_gen : (s.emit m).gen = s.gen := rfl
@[simp] theorem State.emit_r : (s.emit m).r = s.r := rfl
@[simp] theorem State.emit_gv : (s.emit m).gv = s.gv := rfl
@[simp] theorem State.emit_buf : (s.emit m).buf = s.buf := rfl
@[simp] theorem State.emit_len : (s.emit m).len = s.len := rfl
@[simp] theorem State.emit_npos : (s.emit m).npos = s.npos := rfl
@[simp] theorem State.emit_pos : (s.emit m).pos = s.pos := rfl
@[simp] theorem State.emit_ph : (s.emit m).ph = s.ph := rfl
@[simp] theorem State.emit_opl : (s.emit m).opl = s.opl := rfl
@[simp] theorem State.emit_err : (s.emit m).err = s.err := rfl
@[simp] theorem State.emit_vok : (s.emit m).vok = s.vok := rfl
@[simp] theorem State.emit_cmd : (s.emit m).cmd = s.cmd := rfl
@[simp] theorem State.emit_din : (s.emit m).din = s.din := rfl
@[simp] theorem State.emit_rsp : (s.emit m).rsp = if s.rspReady then s.rsp ++ [m.header] else s.rsp := rfl
@[simp] theorem State.emit_dout : (s.emit m).dout = if s.rspReady then s.dout ++ m.data else s.dout := rfl
@[simp] theorem State.emit_pend : (s.emit m).pend = if s.rspReady then none else some m := rfl
@[simp] theorem State.emit_rspReady : (s.emit m).rspReady = s.rspReady := rfl
@[simp] theorem State.emit_rst : (s.emit m).rst = s.rst := rfl
end emit

section raised
variable (s : State) (e : Status)
@[simp] theorem State.raised_cfg : (s.raised e).cfg = s.cfg := rfl
@[simp] theorem State.raised_gen : (s.raised e).gen = s.gen := rfl
@[simp] theorem State.raised_r : (s.raised e).r = s.r := rfl
@[simp] theorem State.raised_gv : (s.raised e).gv = s.gv := rfl
@[simp] theorem State.raised_buf : (s.raised e).buf = s.buf := rfl
@[simp] theorem State.raised_len : (s.raised e).len = s.len := rfl
@[simp] theorem State.raised_npos : (s.raised e).npos = s.npos := rfl
@[simp] theorem State.raised_pos : (s.raised e).pos = s.pos := rfl
@[simp] theorem State.raised_ph : (s.raised e).ph = s.ph := rfl
@[simp] theorem State.raised_opl : (s.raised e).opl = s.opl := rfl
@[simp] theorem State.raised_err : (s.raised e).err = e := rfl
@[simp] theorem State.raised_vok : (s.raised e).vok = s.vok := rfl
@[simp] theorem State.raised_cmd : (s.raised e).cmd = s.cmd := rfl
@[simp] theorem State.raised_din : (s.raised e).din = s.din := rfl
@[simp] theorem State.raised_rsp : (s.raised e).rsp = if s.rspReady then s.rsp ++ [Response.header { status := e, val := 0, data := [] }] else s.rsp := rfl
@[simp] theorem State.raised_dout : (s.raised e).dout = if s.rspReady then s.dout ++ [] else s.dout := rfl
@[simp] theorem State.raised_pend : (s.raised e).pend = if s.rspReady then none else some { status := e, val := 0, data := [] } := rfl
@[simp] theorem State.raised_rspReady : (s.raised e).rspReady = s.rspReady := rfl
@[simp] theorem State.raised_rst : (s.raised e).rst = s.rst := rfl
end raised

section finish
variable (s : State) (v : Nat) (d : BitSeq)
@[simp] theorem State.finish_cfg : (s.finish v d).cfg = s.cfg := rfl
@[simp] theorem State.finish_gen : (s.finish v d).gen = s.gen := rfl
@[simp] theorem State.finish_r : (s.finish v d).r = s.r := rfl
@[simp] theorem State.finish_gv : (s.finish v d).gv = s.gv := rfl
@[simp] theorem State.finish_buf : (s.finish v d).buf = s.buf := rfl
@[simp] theorem State.finish_len : (s.finish v d).len = s.len := rfl
@[simp] theorem State.finish_npos : (s.finish v d).npos = s.npos := rfl
@[simp] theorem State.finish_pos : (s.finish v d).pos = s.pos := rfl
@[simp] theorem State.finish_ph : (s.finish v d).ph = s.ph := rfl
@[simp] theorem State.finish_opl : (s.finish v d).opl = s.opl := rfl
@[simp] theorem State.finish_err : (s.finish v d).err = .ok := rfl
@[simp] theorem State.finish_vok : (s.finish v d).vok = s.vok := rfl
@[simp] theorem State.finish_cmd : (s.finish v d).cmd = s.cmd := rfl
@[simp] theorem State.finish_din : (s.finish v d).din = s.din := rfl
@[simp] theorem State.finish_rsp : (s.finish v d).rsp = if s.rspReady then s.rsp ++ [Response.header { status := .ok, val := v, data := d }] else s.rsp := rfl
@[simp] theorem State.finish_dout : (s.finish v d).dout = if s.rspReady then s.dout ++ d else s.dout := rfl
@[simp] theorem State.finish_pend : (s.finish v d).pend = if s.rspReady then none else some { status := .ok, val := v, data := d } := rfl
@[simp] theorem State.finish_rspReady : (s.finish v d).rspReady = s.rspReady := rfl
@[simp] theorem State.finish_rst : (s.finish v d).rst = s.rst := rfl
end finish

section loadScan
variable (s : State) (op : ScanOp) (b : BitSeq) (n : Nat)
@[simp] theorem State.loadScan_cfg : (s.loadScan op b n).cfg = s.cfg := rfl
@[simp] theorem State.loadScan_gen : (s.loadScan op b n).gen = s.gen := rfl
@[simp] theorem State.loadScan_r : (s.loadScan op b n).r = s.r := rfl
@[simp] theorem State.loadScan_gv : (s.loadScan op b n).gv = s.gv := rfl
@[simp] theorem State.loadScan_buf : (s.loadScan op b n).buf = storeAt 0 b s.buf := rfl
@[simp] theorem State.loadScan_len : (s.loadScan op b n).len = b.length := rfl
@[simp] theorem State.loadScan_npos : (s.loadScan op b n).npos = n := rfl
@[simp] theorem State.loadScan_pos : (s.loadScan op b n).pos = 0 := rfl
@[simp] theorem State.loadScan_ph : (s.loadScan op b n).ph = .scan := rfl
@[simp] theorem State.loadScan_opl : (s.loadScan op b n).opl = op := rfl
@[simp] theorem State.loadScan_err : (s.loadScan op b n).err = s.err := rfl
@[simp] theorem State.loadScan_vok : (s.loadScan op b n).vok = s.vok := rfl
@[simp] theorem State.loadScan_cmd : (s.loadScan op b n).cmd = s.cmd := rfl
@[simp] theorem State.loadScan_din : (s.loadScan op b n).din = s.din := rfl
@[simp] theorem State.loadScan_rsp : (s.loadScan op b n).rsp = s.rsp := rfl
@[simp] theorem State.loadScan_dout : (s.loadScan op b n).dout = s.dout := rfl
@[simp] theorem State.loadScan_pend : (s.loadScan op b n).pend = s.pend := rfl
@[simp] theorem State.loadScan_rspReady : (s.loadScan op b n).rspReady = s.rspReady := rfl
@[simp] theorem State.loadScan_rst : (s.loadScan op b n).rst = s.rst := rfl
end loadScan

section loadGenerator
variable (s : State) (d : BitSeq)
@[simp] theorem State.loadGenerator_cfg : (s.loadGenerator d).cfg = s.cfg := rfl
@[simp] theorem State.loadGenerator_gen : (s.loadGenerator d).gen = storeAt 0 d s.gen := rfl
@[simp] theorem State.loadGenerator_r : (s.loadGenerator d).r = d.length - 1 := rfl
@[simp] theorem State.loadGenerator_gv : (s.loadGenerator d).gv = true := rfl
@[simp] theorem State.loadGenerator_buf : (s.loadGenerator d).buf = s.buf := rfl
@[simp] theorem State.loadGenerator_len : (s.loadGenerator d).len = s.len := rfl
@[simp] theorem State.loadGenerator_npos : (s.loadGenerator d).npos = s.npos := rfl
@[simp] theorem State.loadGenerator_pos : (s.loadGenerator d).pos = s.pos := rfl
@[simp] theorem State.loadGenerator_ph : (s.loadGenerator d).ph = s.ph := rfl
@[simp] theorem State.loadGenerator_opl : (s.loadGenerator d).opl = s.opl := rfl
@[simp] theorem State.loadGenerator_err : (s.loadGenerator d).err = s.err := rfl
@[simp] theorem State.loadGenerator_vok : (s.loadGenerator d).vok = s.vok := rfl
@[simp] theorem State.loadGenerator_cmd : (s.loadGenerator d).cmd = s.cmd := rfl
@[simp] theorem State.loadGenerator_din : (s.loadGenerator d).din = s.din := rfl
@[simp] theorem State.loadGenerator_rsp : (s.loadGenerator d).rsp = s.rsp := rfl
@[simp] theorem State.loadGenerator_dout : (s.loadGenerator d).dout = s.dout := rfl
@[simp] theorem State.loadGenerator_pend : (s.loadGenerator d).pend = s.pend := rfl
@[simp] theorem State.loadGenerator_rspReady : (s.loadGenerator d).rspReady = s.rspReady := rfl
@[simp] theorem State.loadGenerator_rst : (s.loadGenerator d).rst = s.rst := rfl
end loadGenerator

section advance
variable (s : State) (b : BitSeq)
@[simp] theorem State.advance_cfg : (s.advance b).cfg = s.cfg := rfl
@[simp] theorem State.advance_gen : (s.advance b).gen = s.gen := rfl
@[simp] theorem State.advance_r : (s.advance b).r = s.r := rfl
@[simp] theorem State.advance_gv : (s.advance b).gv = s.gv := rfl
@[simp] theorem State.advance_buf : (s.advance b).buf = b := rfl
@[simp] theorem State.advance_len : (s.advance b).len = s.len := rfl
@[simp] theorem State.advance_npos : (s.advance b).npos = s.npos := rfl
@[simp] theorem State.advance_pos : (s.advance b).pos = s.pos + 1 := rfl
@[simp] theorem State.advance_ph : (s.advance b).ph = s.ph := rfl
@[simp] theorem State.advance_opl : (s.advance b).opl = s.opl := rfl
@[simp] theorem State.advance_err : (s.advance b).err = s.err := rfl
@[simp] theorem State.advance_vok : (s.advance b).vok = s.vok := rfl
@[simp] theorem State.advance_cmd : (s.advance b).cmd = s.cmd := rfl
@[simp] theorem State.advance_din : (s.advance b).din = s.din := rfl
@[simp] theorem State.advance_rsp : (s.advance b).rsp = s.rsp := rfl
@[simp] theorem State.advance_dout : (s.advance b).dout = s.dout := rfl
@[simp] theorem State.advance_pend : (s.advance b).pend = s.pend := rfl
@[simp] theorem State.advance_rspReady : (s.advance b).rspReady = s.rspReady := rfl
@[simp] theorem State.advance_rst : (s.advance b).rst = s.rst := rfl
end advance

section afterReset
variable (s : State)
@[simp] theorem State.afterReset_cfg : s.afterReset.cfg = s.cfg := rfl
@[simp] theorem State.afterReset_gen : s.afterReset.gen = [] := rfl
@[simp] theorem State.afterReset_r : s.afterReset.r = 0 := rfl
@[simp] theorem State.afterReset_gv : s.afterReset.gv = false := rfl
@[simp] theorem State.afterReset_buf : s.afterReset.buf = [] := rfl
@[simp] theorem State.afterReset_len : s.afterReset.len = 0 := rfl
@[simp] theorem State.afterReset_npos : s.afterReset.npos = 0 := rfl
@[simp] theorem State.afterReset_pos : s.afterReset.pos = 0 := rfl
@[simp] theorem State.afterReset_ph : s.afterReset.ph = .idle := rfl
@[simp] theorem State.afterReset_opl : s.afterReset.opl = .compute := rfl
@[simp] theorem State.afterReset_err : s.afterReset.err = .ok := rfl
@[simp] theorem State.afterReset_vok : s.afterReset.vok = false := rfl
@[simp] theorem State.afterReset_cmd : s.afterReset.cmd = s.cmd := rfl
@[simp] theorem State.afterReset_din : s.afterReset.din = s.din := rfl
@[simp] theorem State.afterReset_rsp : s.afterReset.rsp = s.rsp := rfl
@[simp] theorem State.afterReset_dout : s.afterReset.dout = s.dout := rfl
@[simp] theorem State.afterReset_pend : s.afterReset.pend = none := rfl
@[simp] theorem State.afterReset_rspReady : s.afterReset.rspReady = s.rspReady := rfl
@[simp] theorem State.afterReset_rst : s.afterReset.rst = false := rfl
end afterReset

section release
variable (s : State)
@[simp] theorem State.release_cfg : s.release.cfg = s.cfg := rfl
@[simp] theorem State.release_gen : s.release.gen = s.gen := rfl
@[simp] theorem State.release_r : s.release.r = s.r := rfl
@[simp] theorem State.release_gv : s.release.gv = s.gv := rfl
@[simp] theorem State.release_buf : s.release.buf = [] := rfl
@[simp] theorem State.release_len : s.release.len = s.len := rfl
@[simp] theorem State.release_npos : s.release.npos = s.npos := rfl
@[simp] theorem State.release_pos : s.release.pos = s.pos := rfl
@[simp] theorem State.release_ph : s.release.ph = .idle := rfl
@[simp] theorem State.release_opl : s.release.opl = s.opl := rfl
@[simp] theorem State.release_err : s.release.err = s.err := rfl
@[simp] theorem State.release_vok : s.release.vok = s.vok := rfl
@[simp] theorem State.release_cmd : s.release.cmd = s.cmd := rfl
@[simp] theorem State.release_din : s.release.din = s.din := rfl
@[simp] theorem State.release_rsp : s.release.rsp = s.rsp := rfl
@[simp] theorem State.release_dout : s.release.dout = s.dout := rfl
@[simp] theorem State.release_pend : s.release.pend = s.pend := rfl
@[simp] theorem State.release_rspReady : s.release.rspReady = s.rspReady := rfl
@[simp] theorem State.release_rst : s.release.rst = s.rst := rfl
end release

section completeCompute
variable (s : State) (rem : BitSeq)
@[simp] theorem completeCompute_cfg : (completeCompute rem s).cfg = s.cfg := rfl
@[simp] theorem completeCompute_gen : (completeCompute rem s).gen = s.gen := rfl
@[simp] theorem completeCompute_r : (completeCompute rem s).r = s.r := rfl
@[simp] theorem completeCompute_gv : (completeCompute rem s).gv = s.gv := rfl
@[simp] theorem completeCompute_buf : (completeCompute rem s).buf = [] := rfl
@[simp] theorem completeCompute_len : (completeCompute rem s).len = s.len := rfl
@[simp] theorem completeCompute_npos : (completeCompute rem s).npos = s.npos := rfl
@[simp] theorem completeCompute_pos : (completeCompute rem s).pos = s.pos := rfl
@[simp] theorem completeCompute_ph : (completeCompute rem s).ph = .idle := rfl
@[simp] theorem completeCompute_opl : (completeCompute rem s).opl = s.opl := rfl
@[simp] theorem completeCompute_err : (completeCompute rem s).err = .ok := rfl
@[simp] theorem completeCompute_vok : (completeCompute rem s).vok = s.vok := rfl
@[simp] theorem completeCompute_cmd : (completeCompute rem s).cmd = s.cmd := rfl
@[simp] theorem completeCompute_din : (completeCompute rem s).din = s.din := rfl
@[simp] theorem completeCompute_rsp : (completeCompute rem s).rsp = if s.rspReady then s.rsp ++ [Response.header { status := .ok, val := s.r, data := rem }] else s.rsp := rfl
@[simp] theorem completeCompute_dout : (completeCompute rem s).dout = if s.rspReady then s.dout ++ rem else s.dout := rfl
@[simp] theorem completeCompute_pend : (completeCompute rem s).pend = if s.rspReady then none else some { status := .ok, val := s.r, data := rem } := rfl
@[simp] theorem completeCompute_rspReady : (completeCompute rem s).rspReady = s.rspReady := rfl
@[simp] theorem completeCompute_rst : (completeCompute rem s).rst = s.rst := rfl
end completeCompute

section completeVerify
variable (s : State) (rem : BitSeq)
@[simp] theorem completeVerify_cfg : (completeVerify rem s).cfg = s.cfg := rfl
@[simp] theorem completeVerify_gen : (completeVerify rem s).gen = s.gen := rfl
@[simp] theorem completeVerify_r : (completeVerify rem s).r = s.r := rfl
@[simp] theorem completeVerify_gv : (completeVerify rem s).gv = s.gv := rfl
@[simp] theorem completeVerify_buf : (completeVerify rem s).buf = [] := rfl
@[simp] theorem completeVerify_len : (completeVerify rem s).len = s.len := rfl
@[simp] theorem completeVerify_npos : (completeVerify rem s).npos = s.npos := rfl
@[simp] theorem completeVerify_pos : (completeVerify rem s).pos = s.pos := rfl
@[simp] theorem completeVerify_ph : (completeVerify rem s).ph = .idle := rfl
@[simp] theorem completeVerify_opl : (completeVerify rem s).opl = s.opl := rfl
@[simp] theorem completeVerify_err : (completeVerify rem s).err = .ok := rfl
@[simp] theorem completeVerify_vok : (completeVerify rem s).vok = allZero rem := rfl
@[simp] theorem completeVerify_cmd : (completeVerify rem s).cmd = s.cmd := rfl
@[simp] theorem completeVerify_din : (completeVerify rem s).din = s.din := rfl
@[simp] theorem completeVerify_rsp : (completeVerify rem s).rsp = if s.rspReady then s.rsp ++ [Response.header { status := .ok, val := boolVal (allZero rem), data := [] }] else s.rsp := rfl
@[simp] theorem completeVerify_dout : (completeVerify rem s).dout = if s.rspReady then s.dout ++ [] else s.dout := rfl
@[simp] theorem completeVerify_pend : (completeVerify rem s).pend = if s.rspReady then none else some { status := .ok, val := boolVal (allZero rem), data := [] } := rfl
@[simp] theorem completeVerify_rspReady : (completeVerify rem s).rspReady = s.rspReady := rfl
@[simp] theorem completeVerify_rst : (completeVerify rem s).rst = s.rst := rfl
end completeVerify

section completeWith
variable (s : State) (rem : BitSeq)
@[simp] theorem State.completeWith_cfg : (s.completeWith rem).cfg = s.cfg := by
  unfold State.completeWith; split <;> rfl
@[simp] theorem State.completeWith_gen : (s.completeWith rem).gen = s.gen := by
  unfold State.completeWith; split <;> rfl
@[simp] theorem State.completeWith_r : (s.completeWith rem).r = s.r := by
  unfold State.completeWith; split <;> rfl
@[simp] theorem State.completeWith_gv : (s.completeWith rem).gv = s.gv := by
  unfold State.completeWith; split <;> rfl
@[simp] theorem State.completeWith_buf : (s.completeWith rem).buf = [] := by
  unfold State.completeWith; split <;> rfl
@[simp] theorem State.completeWith_len : (s.completeWith rem).len = s.len := by
  unfold State.completeWith; split <;> rfl
@[simp] theorem State.completeWith_npos : (s.completeWith rem).npos = s.npos := by
  unfold State.completeWith; split <;> rfl
@[simp] theorem State.completeWith_pos : (s.completeWith rem).pos = s.pos := by
  unfold State.completeWith; split <;> rfl
@[simp] theorem State.completeWith_ph : (s.completeWith rem).ph = .idle := by
  unfold State.completeWith; split <;> rfl
@[simp] theorem State.completeWith_opl : (s.completeWith rem).opl = s.opl := by
  unfold State.completeWith; split <;> rfl
@[simp] theorem State.completeWith_err : (s.completeWith rem).err = .ok := by
  unfold State.completeWith; split <;> rfl
@[simp] theorem State.completeWith_cmd : (s.completeWith rem).cmd = s.cmd := by
  unfold State.completeWith; split <;> rfl
@[simp] theorem State.completeWith_din : (s.completeWith rem).din = s.din := by
  unfold State.completeWith; split <;> rfl
@[simp] theorem State.completeWith_rspReady : (s.completeWith rem).rspReady = s.rspReady := by
  unfold State.completeWith; split <;> rfl
@[simp] theorem State.completeWith_rst : (s.completeWith rem).rst = s.rst := by
  unfold State.completeWith; split <;> rfl
end completeWith

end Sys2Proof.Machine
end

