-- ==== Sys2Proof/Laws/Ops.lean ====
section
/-! SUPPORT. One lemma per shared operation that says everything it can do: accepting a command, reset, transfer of a waiting
response, the accepting part of each command, DIVSTEP and COMPLETE. -/

namespace Sys2Proof.Machine

variable {s t : State}

theorem State.canAccept_iff : s.canAccept = true ↔ s.ph = .idle ∧ s.pend = none := by
  simp [State.canAccept]

/-- A command whose operand stands on DIN is accepted whole. -/
theorem accept_of_presented {act : BitSeq → State → Result} {d rest : BitSeq} (hp : s.ph = .idle) (hq : s.pend = none)
    (hd : s.din = d ++ rest) : accept d.length act s = act d (s.consume rest) := by
  rw [accept, if_pos (State.canAccept_iff.2 ⟨hp, hq⟩), hd, takeOperand_append]

/-- Accepting either leaves everything as it is, because the engine cannot take the command or its operand is not all there, or runs
the command on its operand. -/
theorem accept_cases (n : Nat) (act : BitSeq → State → Result) (s : State) :
    (accept n act s = .next s ∧ (s.canAccept = false ∨ s.din.length < n)) ∨
    (∃ d rest, s.ph = .idle ∧ s.pend = none ∧ s.din = d ++ rest ∧ d.length = n ∧
      accept n act s = act d (s.consume rest)) := by
  by_cases hc : s.canAccept = true
  · obtain ⟨hp, hq⟩ := State.canAccept_iff.1 hc
    by_cases hn : s.din.length < n
    · exact .inl ⟨by rw [accept, if_pos hc, takeOperand_eq_none.2 hn], .inr hn⟩
    · refine .inr ⟨s.din.take n, s.din.drop n, hp, hq, (List.take_append_drop n _).symm, by simp; omega, ?_⟩
      rw [accept, if_pos hc, takeOperand, if_pos (by omega)]
  · exact .inl ⟨by rw [accept, if_neg hc], .inl (by simpa using hc)⟩

theorem resetStep_eq (s : State) :
    resetStep s = if s.partlyDelivered then .refused .resetDuringDelivery else .next s.afterReset := rfl

/-- The accepting part of LOADGEN as one chain of conditions. -/
theorem loadgenAct_eq (d : BitSeq) (s : State) :
    loadgenAct d s = if s.cfg.rmax < d.length - 1 then .refused .overCapacity
      else if d.head? = some true then .next ((s.loadGenerator d).finish (d.length - 1) [])
      else .next (s.raised .invalidGenerator) := by
  match d with
  | [] => rfl
  | true :: _ => rfl
  | false :: _ => rfl

/-- The accepting part of DEGREE. -/
theorem degreeAct_eq (s : State) :
    degreeAct s = if s.gv = true then .next (s.finish s.r []) else .next (s.raised .invalidGenerator) := rfl

/-- The accepting part of COMPUTE. -/
theorem computeAct_eq (d : BitSeq) (s : State) :
    computeAct d s = if s.cfg.lmax < d.length + s.r then .refused .overCapacity
      else if s.gv = false then .next (s.raised .invalidGenerator)
      else if d = [] then .next (s.raised .emptyPayload)
      else .next (s.loadScan .compute (d ++ zeros s.r) d.length) := rfl

/-- The accepting part of VERIFY. -/
theorem verifyAct_eq (d : BitSeq) (s : State) :
    verifyAct d s = if s.cfg.lmax < d.length then .refused .overCapacity
      else if s.gv = false then .next (s.raised .invalidGenerator)
      else if d.length < s.r then .next (s.raised .frameTooShort)
      else .next (s.loadScan .verify d (d.length - s.r)) := rfl

/-- The DIVSTEP buffer, when the accesses are in bounds: one position of the scan (R82). -/
theorem divBuffer_eq_ok (hp : s.pos + s.r < s.len) (hb : s.len ≤ s.buf.length) (hg : s.r + 1 ≤ s.gen.length) :
    divBuffer s = .ok (reduceAt s.generator s.buf s.pos) := by
  have hlt : s.pos < s.buf.length := by omega
  have hc : readCell s.buf s.len s.pos = .ok s.buf[s.pos] :=
    readCell_eq_ok.2 ⟨by omega, List.getElem?_eq_getElem hlt⟩
  have hgl : s.generator.length = s.r + 1 := by simp [State.generator]; omega
  have hw : memRead s.buf s.len s.pos (s.r + 1) = .ok ((s.buf.drop s.pos).take (s.r + 1)) :=
    memRead_eq_ok.2 ⟨by omega, by omega, rfl⟩
  have hgr : memRead s.gen (s.r + 1) 0 (s.r + 1) = .ok s.generator :=
    memRead_eq_ok.2 ⟨by omega, by omega, by simp [State.generator]⟩
  have hx : (xorSeq ((s.buf.drop s.pos).take (s.r + 1)) s.generator).length = s.r + 1 := by
    simp [hgl]; omega
  have hm := memWrite_eq_ok (cells := s.buf) (bound := s.len) (addr := s.pos)
    (v := xorSeq ((s.buf.drop s.pos).take (s.r + 1)) s.generator) |>.2 ⟨by omega, by omega, rfl⟩
  simp only [divBuffer, windowUpdate, hc, hw, hgr, hm, reduceAt, List.getElem?_eq_getElem hlt, hgl,
    bind, Except.bind, pure, Except.pure]
  cases s.buf[s.pos] <;> simp

/-- A window update that succeeds stays inside the buffer and leaves a list of the same length. -/
theorem windowUpdate_ok {b : BitSeq} (h : windowUpdate s = .ok b) :
    s.pos + (s.r + 1) ≤ s.len ∧ s.len ≤ s.len ∧ s.r + 1 ≤ s.gen.length ∧ b.length = s.buf.length := by
  unfold windowUpdate at h
  simp only [bind, Except.bind] at h
  split at h
  · cases h
  · rename_i w hw
    obtain ⟨h1, h2, rfl⟩ := memRead_eq_ok.1 hw
    split at h
    · cases h
    · rename_i g hg
      obtain ⟨h3, h4, rfl⟩ := memRead_eq_ok.1 hg
      obtain ⟨h5, h6, rfl⟩ := memWrite_eq_ok.1 h
      refine ⟨h1, le_refl _, by omega, storeAt_length_of_le ?_⟩
      simp; omega

/-- A DIVSTEP buffer has as many cells as before. -/
theorem divBuffer_length {b : BitSeq} (h : divBuffer s = .ok b) : b.length = s.buf.length := by
  unfold divBuffer at h
  simp only [bind, Except.bind] at h
  split at h
  · cases h
  · split at h
    · exact (windowUpdate_ok h).2.2.2
    · cases h; rfl

/-- DIVSTEP answers a next state only by advancing over one position. -/
theorem divStep_next (h : divStep s = .next t) : ∃ b, divBuffer s = .ok b ∧ t = s.advance b := by
  unfold divStep answer at h
  cases hb : divBuffer s with
  | error f => simp [hb, Except.map] at h
  | ok b => exact ⟨b, rfl, by simpa [hb, Except.map] using h.symm⟩

/-- COMPLETE answers a next state only from a readable remainder. -/
theorem completeStep_next (h : completeStep s = .next t) :
    ∃ rem, readRemainder s = .ok rem ∧ t = s.completeWith rem := by
  unfold completeStep answer at h
  cases hb : readRemainder s with
  | error f => simp [hb, Except.map] at h
  | ok b => exact ⟨b, rfl, by simpa [hb, Except.map] using h.symm⟩

/-- The remainder COMPLETE reads is the view REM (R18), when the buffer is written. -/
theorem readRemainder_eq_ok (hr : s.r ≤ s.len) (hb : s.len ≤ s.buf.length) : readRemainder s = .ok s.remainder :=
  memRead_eq_ok.2 ⟨by omega, by omega, by
    rw [State.remainder, State.buffer, List.drop_take]; congr 1; omega⟩

/-- The remainder has exactly R bits (R18). -/
theorem readRemainder_length {rem : BitSeq} (h : readRemainder s = .ok rem) : rem.length = s.r := by
  obtain ⟨h1, h2, rfl⟩ := memRead_eq_ok.1 h
  simp; omega

/-- The scan's step: DIVSTEP, COMPLETE, or no enabled step. -/
theorem scanStep_cases (h : scanStep s = .next t) :
    (s.pos < s.npos ∧ ∃ b, divBuffer s = .ok b ∧ t = s.advance b) ∨
    (s.pos = s.npos ∧ ∃ rem, readRemainder s = .ok rem ∧ t = s.completeWith rem) := by
  unfold scanStep at h
  split at h
  · exact .inl ⟨‹_›, divStep_next h⟩
  · split at h
    · exact .inr ⟨‹_›, completeStep_next h⟩
    · cases h

end Sys2Proof.Machine
end

