-- ==== Sys2Proof/Laws/Memory.lean ====
section
/-! SUPPORT. The two cell spaces keep their form: every operation that writes GEN or BUF leaves the lists inside their address
spaces (20_memory R30), and reading back what a load wrote gives it. -/

namespace Sys2Proof.Machine

variable {s : State}

theorem State.memWf_iff : s.memWf = true ↔ s.gen.length ≤ s.cfg.rmax + 1 ∧ s.buf.length ≤ s.cfg.lmax := by
  simp [State.memWf]

theorem memWf_resetWith (c : Config) : (State.resetWith c).memWf = true := by
  simp [State.memWf, State.resetWith]

theorem memWf_reset : State.reset.memWf = true := memWf_resetWith _

/-- LOADGEN's writes, within capacity (R70, R134). -/
theorem memWf_loadGenerator {d : BitSeq} (h : s.memWf = true) (hc : d.length - 1 ≤ s.cfg.rmax) :
    (s.loadGenerator d).memWf = true := by
  rw [State.memWf_iff] at *
  exact ⟨storeAt_zero_length_le (by simp; omega) h.1, h.2⟩

/-- The load of ACCEPT, within capacity (R37, R134). -/
theorem memWf_loadScan {op : ScanOp} {b : BitSeq} {n : Nat} (h : s.memWf = true) (hc : b.length ≤ s.cfg.lmax) :
    (s.loadScan op b n).memWf = true := by
  rw [State.memWf_iff] at *
  exact ⟨h.1, storeAt_zero_length_le hc h.2⟩

/-- DIVSTEP writes no cell that was not there (R85). -/
theorem memWf_advance {b : BitSeq} (h : s.memWf = true) (hb : divBuffer s = .ok b) : (s.advance b).memWf = true := by
  rw [State.memWf_iff] at *
  exact ⟨h.1, by simpa [divBuffer_length hb] using h.2⟩

/-- The end of a scan leaves no cell of BUF with a value (R14). -/
theorem memWf_completeWith {rem : BitSeq} (h : s.memWf = true) : (s.completeWith rem).memWf = true := by
  rw [State.memWf_iff] at *
  simpa using h.1

/-- No read of a space without values gives one (U2). -/
theorem memRead_nil {bound addr n : Nat} (h : 0 < n) : ∃ f, memRead [] bound addr n = .error f := by
  unfold memRead
  split
  · exact ⟨_, rfl⟩
  · exact ⟨_, if_pos (by simp; omega)⟩

/-- The same for one cell. -/
theorem readCell_nil (bound a : Nat) : ∃ f, readCell [] bound a = .error f := by
  unfold readCell
  split <;> exact ⟨_, rfl⟩

/-- What a write put at `addr ..` is what a read of as many cells gives (R6, R39). -/
theorem memRead_of_memWrite {cells w v : BitSeq} {bound addr : Nat} (h : memWrite cells bound addr v = .ok w) :
    memRead w bound addr v.length = .ok v := by
  obtain ⟨h1, h2, rfl⟩ := memWrite_eq_ok.1 h
  refine memRead_eq_ok.2 ⟨h1, by rw [storeAt_length h2]; omega, ?_⟩
  simp [storeAt, Nat.min_eq_left h2]

/-- A write leaves every other cell alone (R37). -/
theorem memWrite_getElem?_of_outside {cells w v : BitSeq} {bound addr a : Nat} (h : memWrite cells bound addr v = .ok w)
    (ha : a < addr ∨ addr + v.length ≤ a) : w[a]? = cells[a]? := by
  obtain ⟨_, h2, rfl⟩ := memWrite_eq_ok.1 h
  rw [storeAt_getElem? h2, if_neg (by omega)]

end Sys2Proof.Machine
end

