-- ==== Sys2Proof/Laws/PerInstr.lean ====
section
/-! SUPPORT. Statements made per command: the encoding of every well-formed command carries its OPC in [31:30] (30_encoding R51). -/

namespace Sys2Proof.Laws.OpcodeField

/-- OPC of the encoded command is the command's opcode. -/
def Statement (i : Instr) : Prop := i.wf = true → (opcField (encode i)).toNat = i.opc

theorem opcField_append (k : Nat) (l : BitVec 30) (hk : k < 4) : (opcField (BitVec.ofNat 2 k ++ l)).toNat = k := by
  rw [opcField, BitVec.extractLsb'_append_eq_left, BitVec.toNat_ofNat]
  exact Nat.mod_eq_of_lt hk

theorem loadgen (len : Nat) : Statement (.loadgen len) := fun _ => opcField_append 0 _ (by omega)

theorem degree : Statement .degree := fun _ => opcField_append 1 _ (by omega)

theorem compute (len : Nat) : Statement (.compute len) := fun _ => opcField_append 2 _ (by omega)

theorem verify (len : Nat) : Statement (.verify len) := fun _ => opcField_append 3 _ (by omega)

end Sys2Proof.Laws.OpcodeField
end

