-- ==== Sys2Proof/Laws/Run.lean ====
section
/-! SUPPORT. Runs of several steps: one step first, and runs put end to end. -/

namespace Sys2Proof.Machine

theorem run_succ_eq (M : Host.Core) (k : Nat) (s : M.State) :
    M.run (k + 1) s =
      match M.step s with
      | .next u => M.run k u
      | .fault f => .fault f
      | .refused q => .refused q := rfl

theorem run_add_eq (M : Host.Core) (a b : Nat) :
    ∀ {s t : M.State}, M.run a s = .next t → M.run (a + b) s = M.run b t := by
  induction a with
  | zero => intro s t h; cases h; rw [Nat.zero_add]
  | succ a ih =>
    intro s t h
    rw [Nat.succ_add_eq_add_succ, Nat.add_succ, run_succ_eq]
    rw [run_succ_eq] at h
    split at h
    · exact ih h
    · cases h
    · cases h

@[simp] theorem runFor_zero (s : State) : runFor 0 s = .next s := rfl

/-- A run whose first step answers `t` goes on from `t`. -/
theorem runFor_of_step {s t : State} (k : Nat) (h : step s = .next t) : runFor (k + 1) s = runFor k t := by
  have e := run_succ_eq core k s
  rw [show core.step s = .next t from h] at e
  exact e

/-- One step is a run of one. -/
theorem runFor_one {s t : State} (h : step s = .next t) : runFor 1 s = .next t := runFor_of_step 0 h

/-- Two runs end to end are one run. -/
theorem runFor_append {s t u : State} {a b : Nat} (h₁ : runFor a s = .next t) (h₂ : runFor b t = .next u) :
    runFor (a + b) s = .next u :=
  (run_add_eq core a b h₁).trans h₂

end Sys2Proof.Machine
end

