-- ==== Sys2Proof/Laws/Step.lean ====
section
/-! SUPPORT. What an accepted command and a step can do, said once: every invariant is a case analysis over these. -/

namespace Sys2Proof.Machine

variable {s t : State}

/-- What an accepted command does: it is held or waits, it fails with one of the three errors, or it has its own effect. -/
inductive AcceptOutcome (i : Instr) (s t : State) : Prop where
  | held (h : t = s) (why : s.canAccept = false ∨ s.din.length < i.operandLen)
  | failed (d rest : BitSeq) (e : Status) (hd : s.din = d ++ rest) (hl : d.length = i.operandLen)
      (hi : s.ph = .idle) (hq : s.pend = none) (he : e ≠ .ok) (h : t = (s.consume rest).raised e)
  | loaded (d rest : BitSeq) (hi' : i = .loadgen d.length) (hd : s.din = d ++ rest)
      (hi : s.ph = .idle) (hq : s.pend = none) (hv : d.head? = some true) (hc : d.length - 1 ≤ s.cfg.rmax)
      (h : t = ((s.consume rest).loadGenerator d).finish (d.length - 1) [])
  | degree (hi' : i = .degree) (hi : s.ph = .idle) (hq : s.pend = none) (hg : s.gv = true)
      (h : t = (s.consume s.din).finish s.r [])
  | compute (d rest : BitSeq) (hi' : i = .compute d.length) (hd : s.din = d ++ rest)
      (hi : s.ph = .idle) (hq : s.pend = none) (hg : s.gv = true) (hne : d ≠ []) (hc : d.length + s.r ≤ s.cfg.lmax)
      (h : t = (s.consume rest).loadScan .compute (d ++ zeros s.r) d.length)
  | verify (d rest : BitSeq) (hi' : i = .verify d.length) (hd : s.din = d ++ rest)
      (hi : s.ph = .idle) (hq : s.pend = none) (hg : s.gv = true) (hr : s.r ≤ d.length) (hc : d.length ≤ s.cfg.lmax)
      (h : t = (s.consume rest).loadScan .verify d (d.length - s.r))

/-- The inversion of exec: everything a command can do when it answers a next state. -/
theorem exec_cases {i : Instr} (h : exec i s = .next t) : AcceptOutcome i s t := by
  cases i with
  | loadgen n =>
    simp only [exec, execLoadgen] at h
    rcases accept_cases n loadgenAct s with ⟨he, hw⟩ | ⟨d, rest, hp, hq, hd, rfl, he⟩ <;> rw [he] at h
    · exact .held (by simpa using h.symm) hw
    · rw [loadgenAct_eq] at h
      split at h
      · cases h
      · split at h <;> simp only [Host.Outcome.next.injEq] at h
        · exact .loaded d rest rfl hd hp hq ‹_› (by simp_all) h.symm
        · exact .failed d rest _ hd rfl hp hq (by simp) h.symm
  | degree =>
    simp only [exec, execDegree] at h
    rcases accept_cases 0 (fun _ u => degreeAct u) s with ⟨he, hw⟩ | ⟨d, rest, hp, hq, hd, hl, he⟩ <;> rw [he] at h
    · exact .held (by simpa using h.symm) hw
    · obtain rfl : d = [] := by simpa using hl
      obtain rfl : s.din = rest := by simpa using hd
      simp only [degreeAct_eq] at h
      split at h <;> simp only [Host.Outcome.next.injEq] at h
      · exact .degree rfl hp hq ‹_› h.symm
      · exact .failed [] _ _ hd rfl hp hq (by simp) h.symm
  | compute n =>
    simp only [exec, execCompute] at h
    rcases accept_cases n computeAct s with ⟨he, hw⟩ | ⟨d, rest, hp, hq, hd, rfl, he⟩ <;> rw [he] at h
    · exact .held (by simpa using h.symm) hw
    · rw [computeAct_eq] at h
      split at h
      · cases h
      · split at h
        · simp only [Host.Outcome.next.injEq] at h
          exact .failed d rest _ hd rfl hp hq (by simp) h.symm
        · split at h <;> simp only [Host.Outcome.next.injEq] at h
          · exact .failed d rest _ hd rfl hp hq (by simp) h.symm
          · exact .compute d rest rfl hd hp hq (by simp_all) ‹_› (by simp_all) h.symm
  | verify n =>
    simp only [exec, execVerify] at h
    rcases accept_cases n verifyAct s with ⟨he, hw⟩ | ⟨d, rest, hp, hq, hd, rfl, he⟩ <;> rw [he] at h
    · exact .held (by simpa using h.symm) hw
    · rw [verifyAct_eq] at h
      split at h
      · cases h
      · split at h
        · simp only [Host.Outcome.next.injEq] at h
          exact .failed d rest _ hd rfl hp hq (by simp) h.symm
        · split at h <;> simp only [Host.Outcome.next.injEq] at h
          · exact .failed d rest _ hd rfl hp hq (by simp) h.symm
          · exact .verify d rest rfl hd hp hq (by simp_all) (by simp_all) (by simp_all) h.symm

/-- What a step does: it serves a reset, lets a waiting response go or keeps it, takes a step of the scan, waits for a command, or
accepts one. -/
inductive StepOutcome (s t : State) : Prop where
  | reset (hr : s.rst = true) (hd : s.partlyDelivered = false) (h : t = s.afterReset)
  | transferred (m : Response) (hr : s.rst = false) (hp : s.pend = some m) (hy : s.rspReady = true)
      (h : t = { s with pend := none }.emit m)
  | waiting (m : Response) (hr : s.rst = false) (hp : s.pend = some m) (hy : s.rspReady = false) (h : t = s)
  | divstep (b : BitSeq) (hr : s.rst = false) (hp : s.pend = none) (hs : s.ph = .scan) (hn : s.pos < s.npos)
      (hb : divBuffer s = .ok b) (h : t = s.advance b)
  | complete (rem : BitSeq) (hr : s.rst = false) (hp : s.pend = none) (hs : s.ph = .scan) (hn : s.pos = s.npos)
      (hb : readRemainder s = .ok rem) (h : t = s.completeWith rem)
  | noCommand (hr : s.rst = false) (hp : s.pend = none) (hs : s.ph = .idle) (hc : s.cmd = []) (h : t = s)
  | accepted (w : Header) (ws : List Header) (hr : s.rst = false) (hp : s.pend = none) (hs : s.ph = .idle)
      (hc : s.cmd = w :: ws) (he : exec (decode w) s = .next t) (ho : AcceptOutcome (decode w) s t)

/-- The inversion of step. -/
theorem step_cases (h : step s = .next t) : StepOutcome s t := by
  unfold step at h
  split at h
  · rename_i hr
    rw [resetStep_eq] at h
    split at h
    · cases h
    · rename_i hd
      exact .reset hr (by simpa using hd) (by simpa using h.symm)
  · rename_i hr
    have hr : s.rst = false := by simpa using hr
    split at h
    · rename_i m hm
      simp only [State.transfer, Host.Outcome.next.injEq] at h
      split at h <;> rename_i hy
      · exact .transferred m hr hm hy h.symm
      · exact .waiting m hr hm (by simpa using hy) h.symm
    · rename_i hm
      split at h
      · rename_i hs
        rcases scanStep_cases h with ⟨hn, b, hb, rfl⟩ | ⟨hn, rem, hb, rfl⟩
        · exact .divstep b hr hm hs hn hb rfl
        · exact .complete rem hr hm hs hn hb rfl
      · rename_i hs
        cases hc : s.cmd with
        | nil =>
          simp only [State.fetch, hc, List.head?_nil, Option.map_none, Host.Outcome.next.injEq] at h
          exact .noCommand hr hm hs hc h.symm
        | cons w ws =>
          simp only [State.fetch, hc, List.head?_cons, Option.map_some] at h
          exact .accepted w ws hr hm hs hc h (exec_cases h)

end Sys2Proof.Machine
end

