-- ==== Sys2Proof/Tests/Slice0.lean ====
section
/-! SUPPORT. Own tests: ill-formed terms the checks refuse, worked vectors of 95_test_vectors (one step each), and for every
statement with hypotheses a concrete state and operands that meet them, at the boundaries of its clauses. -/

namespace Sys2Proof.Tests

open Sys2Proof Sys2Proof.Machine

/-! ## Helpers -/

/-- A bit sequence from digits. -/
def bs (l : List Nat) : BitSeq := l.map (fun n => n == 1)

/-- The smallest legal capacity (R4): RMAX = 16, LMAX = 17. -/
def small : Config := { rmax := 16, lmax := 17 }

/-- An engine right after reset. -/
def fresh : State := State.resetWith small

/-- An idle engine with a generator loaded. -/
def loaded (g : BitSeq) : State := { fresh with gen := g, r := g.length - 1, gv := true }

/-- A scan in progress. -/
def scanning (g b : BitSeq) (npos pos : Nat) (op : ScanOp) : State :=
  { loaded g with buf := b, len := b.length, npos := npos, pos := pos, ph := .scan, opl := op }

/-- An engine to which one command frame has been delivered. -/
def given (s : State) (i : Instr) (d : BitSeq) : State := s.deliver { instr := i, data := d }

/-- The state a step answers, if it answers one. -/
def after : Result → Option State
  | .next s => some s
  | .fault _ => none
  | .refused _ => none

/-- `10011`, `1`, `10`, `1011` and the sixteen-bit generator of vector V56. -/
def g4 : BitSeq := bs [1, 0, 0, 1, 1]
def g0 : BitSeq := bs [1]
def g1 : BitSeq := bs [1, 0]
def g3 : BitSeq := bs [1, 0, 1, 1]
def g16 : BitSeq := bs [1, 0, 0, 1, 1, 0, 0, 0, 0, 0, 0, 0, 1, 0, 0, 0, 1]

theorem presents_of {s : State} {d rest : BitSeq} (h : s.ph = .idle ∧ s.pend = none ∧ s.din = d ++ rest) :
    s.Presents d rest := ⟨h.1, h.2.1, h.2.2⟩

/-- The invariant from finitely many checks, for a state with no waiting response. -/
theorem inv_of {s : State}
    (h : (s.cfg.wf = true ∧ s.memWf = true ∧ s.r ≤ s.cfg.rmax ∧ (s.gv = true → s.r + 1 ≤ s.gen.length) ∧
      (s.gv = true → s.gen.head? = some true) ∧ (s.gv = false → s.r = 0)) ∧
      (s.pos ≤ s.npos ∧ s.npos ≤ s.len ∧ s.len ≤ s.cfg.lmax) ∧
      ((s.ph = .scan → s.gv = true) ∧ (s.ph = .scan → s.npos + s.r = s.len) ∧ (s.ph = .scan → s.len ≤ s.buf.length) ∧
      (s.ph = .scan → ∀ a, a < s.pos → s.buf[a]? = some false)) ∧ s.pend = none) : s.Inv := by
  obtain ⟨⟨h1, h2, h3, h4, h5, h6⟩, ⟨h7, h8, h9⟩, ⟨h10, h11, h12, h13⟩, h14⟩ := h
  exact ⟨h1, h2, h3, h4, h5, h6, h7, h8, h9, h10, h11, h12, h13, fun _ => h14, fun m hm => by simp [h14] at hm⟩

theorem fresh_inv : fresh.Inv := inv_of (by decide)
theorem loaded_g4_inv : (loaded g4).Inv := inv_of (by decide)
theorem loaded_g0_inv : (loaded g0).Inv := inv_of (by decide)
theorem loaded_g16_inv : (loaded g16).Inv := inv_of (by decide)

/-- V1 before its first DIVSTEP, and with the scan done. -/
def computeStart : State := scanning g4 (bs [1, 1, 0, 1, 0, 1, 1, 1, 1, 1, 0, 0, 0, 0]) 10 0 .compute
def computeEnd : State := scanning g4 (bs [0, 0, 0, 0, 0, 0, 0, 0, 0, 0, 0, 0, 1, 0]) 10 10 .compute

/-- V24: a frame of exactly R bits, no position to scan; V45: R = 0. -/
def verifyShortest : State := scanning g4 (bs [0, 0, 0, 1]) 0 0 .verify
def verifyDegreeZero : State := scanning g0 (bs [1, 0, 1]) 3 0 .verify
def verifyDegreeZeroEnd : State := scanning g0 (bs [0, 0, 0]) 3 3 .verify

theorem computeStart_inv : computeStart.Inv := inv_of (by decide)
theorem computeEnd_inv : computeEnd.Inv := inv_of (by decide)
theorem verifyShortest_inv : verifyShortest.Inv := inv_of (by decide)
theorem verifyDegreeZero_inv : verifyDegreeZero.Inv := inv_of (by decide)
theorem verifyDegreeZeroEnd_inv : verifyDegreeZeroEnd.Inv := inv_of (by decide)

/-- A response the host has not taken. -/
def answered : Response := { status := .ok, val := 4, data := [] }
def waiting : State := { (loaded g4).setReady false with pend := some answered }

/-! ## Ill-formed terms -/

/-- LEN has 30 bits (R51). -/
theorem test_wf_refuses_loadgen : (Instr.loadgen (2 ^ 30)).wf = false := by decide
theorem test_wf_refuses_compute : (Instr.compute (2 ^ 30)).wf = false := by decide
theorem test_wf_refuses_verify : (Instr.verify (2 ^ 30)).wf = false := by decide

/-- Each bound of R4 on its own. -/
theorem test_wf_refuses_config :
    Config.wf ⟨15, 100⟩ = false ∧ Config.wf ⟨2 ^ 30 - 1, 2 ^ 30⟩ = false ∧ Config.wf ⟨16, 16⟩ = false ∧
    Config.wf ⟨16, 2 ^ 30 + 16⟩ = false ∧ Config.wf ⟨16, 17⟩ = true ∧ Config.largest.wf = true := by decide

/-- R50: an operand that is shorter, or longer, than LEN, and an operand to DEGREE. -/
theorem test_wf_refuses_command :
    Command.wf ⟨.verify 3, bs [1, 0]⟩ = false ∧ Command.wf ⟨.loadgen 1, bs [1, 0]⟩ = false ∧
    Command.wf ⟨.degree, bs [1]⟩ = false := by decide

/-- R58: an error with a value or with bits, a bit count that VAL does not give, a value beyond 30 bits. -/
theorem test_wf_refuses_response :
    Response.wf ⟨.emptyPayload, 1, []⟩ = false ∧ Response.wf ⟨.frameTooShort, 0, bs [1]⟩ = false ∧
    Response.wf ⟨.ok, 2, bs [1]⟩ = false ∧ Response.wf ⟨.ok, 2 ^ 30, []⟩ = false := by decide

/-- R30: GEN has RMAX+1 cells and BUF has LMAX. -/
theorem test_memWf_refuses :
    State.memWf { fresh with gen := zeros 18 } = false ∧ State.memWf { fresh with buf := zeros 18 } = false := by decide

/-! ## Headers written out (R51, R52, R57; the words of 30_encoding section 7) -/

theorem test_encode_words :
    encode (.loadgen 5) = 0b00000000000000000000000000000101#32 ∧ encode .degree = 0b01000000000000000000000000000000#32 ∧
    encode (.compute 10) = 0b10000000000000000000000000001010#32 ∧
    encode (.verify 14) = 0b11000000000000000000000000001110#32 := by decide

theorem test_response_words :
    Response.header ⟨.ok, 4, []⟩ = 0x00000004#32 ∧ Response.header ⟨.invalidGenerator, 0, []⟩ = 0x40000000#32 ∧
    Response.header ⟨.emptyPayload, 0, []⟩ = 0x80000000#32 ∧ Response.header ⟨.frameTooShort, 0, []⟩ = 0xC0000000#32 := by
  decide

/-- The opcode table numbers a header's bits as R51 does. -/
theorem test_decodeTableWord :
    decodeTableWord 32 0x8000000A = some (.compute 10) ∧ decodeTableWord 32 0x40000000 = some .degree := by decide

/-! ## Vectors, one step each -/

/-- V50: `LOADGEN "10011"`. -/
theorem test_loadgen_v50 :
    (after (exec (.loadgen 5) (given fresh (.loadgen 5) g4))).map
      (fun t => (t.gen, t.r, t.gv, t.rsp, t.statusPort)) = some (g4, 4, true, [0x00000004#32], 0x08#32) := by decide

/-- V57: after it `LOADGEN "0011"` fails and keeps the generator. -/
theorem test_loadgen_v57 :
    (after (exec (.loadgen 4) (given (loaded g4) (.loadgen 4) (bs [0, 0, 1, 1])))).map
      (fun t => (t.gen, t.r, t.rsp, t.statusPort)) = some (g4, 4, [0x40000000#32], 0x09#32) := by decide

/-- V58: a shorter generator leaves the cells above R as they were (R70). -/
theorem test_loadgen_keeps_high_cells :
    (after (exec (.loadgen 4) (given (loaded g4) (.loadgen 4) g3))).map
      (fun t => (t.generator, t.r, t.gen[4]?)) = some (g3, 3, some true) := by decide

/-- V61: DEGREE of the degree-0 generator is OK with 0. -/
theorem test_degree_v61 :
    (after (exec .degree (given (loaded g0) .degree []))).map (fun t => (t.rsp, t.err)) =
      some ([0x00000000#32], .ok) := by decide

/-- V59: DEGREE without a generator. -/
theorem test_degree_v59 :
    (after (exec .degree (given fresh .degree []))).map (fun t => (t.rsp, t.statusPort)) =
      some ([0x40000000#32], 0x01#32) := by decide

/-- V3: `COMPUTE "1"`, accepted with four zero bits appended. -/
theorem test_compute_v3 :
    (after (exec (.compute 1) (given (loaded g4) (.compute 1) (bs [1])))).map
      (fun t => (t.buffer, t.len, t.npos, t.pos, t.statusPort)) = some (bs [1, 0, 0, 0, 0], 5, 1, 0, 0x18#32) := by decide

/-- V70: an error keeps ST.VOK and ST.GV. -/
theorem test_compute_v70 :
    (after (exec (.compute 0) (given { loaded g4 with vok := true } (.compute 0) []))).map
      (fun t => (t.rsp, t.statusPort)) = some ([0x80000000#32], 0x0E#32) := by decide

/-- V23: a frame of R bits is accepted and has no position to scan. -/
theorem test_verify_v23 :
    (after (exec (.verify 4) (given (loaded g4) (.verify 4) (zeros 4)))).map
      (fun t => (t.len, t.npos, t.ph, t.opl)) = some (4, 0, .scan, .verify) := by decide

/-- V62: a frame of three bits is too short. -/
theorem test_verify_v62 :
    (after (exec (.verify 3) (given (loaded g4) (.verify 3) (bs [1, 0, 1])))).map
      (fun t => (t.rsp, t.err, t.buf)) = some ([0xC0000000#32], .frameTooShort, []) := by decide

/-- V43 and V44: the set bit at cell 12 is never tested. -/
theorem test_divstep_v43 :
    (after (step (scanning g4 (bs [0, 0, 0, 0, 0, 0, 0, 0, 1, 0, 0, 1, 0, 0]) 10 8 .compute))).map (fun t => (t.buf, t.pos)) =
      some (bs [0, 0, 0, 0, 0, 0, 0, 0, 0, 0, 0, 0, 1, 0], 9) := by decide

/-- V45: R = 0, the window is one cell. -/
theorem test_divstep_v45 :
    (after (step verifyDegreeZero)).map (fun t => (t.buf, t.pos)) = some (bs [0, 0, 1], 1) := by decide

/-- V1's COMPLETE: response `OK 4`, bits 0010, and no value left in the buffer (R91). -/
theorem test_complete_v1 :
    (after (step computeEnd)).map (fun t => (t.rsp, t.dout, t.ph, t.buf)) =
      some ([0x00000004#32], bs [0, 0, 1, 0], .idle, []) := by decide

/-- V24's COMPLETE: false is carried with OK and clears ST.VOK. -/
theorem test_complete_v24 :
    (after (step { verifyShortest with vok := true })).map (fun t => (t.rsp, t.dout, t.statusPort)) =
      some ([0x00000000#32], [], 0x08#32) := by decide

/-- V10 and V12: whole remainders. -/
theorem test_divide_v10_v12 :
    computeOf (bs [1, 0, 0, 1]) g3 = bs [1, 1, 0] ∧
    computeOf (bytesBits [0x41#8]) g16 = bs [0, 1, 0, 0, 0, 1, 0, 0, 1, 0, 0, 0, 1, 1, 0, 0] := by decide

/-- V17 and V18: the undetected errors of a monomial generator and of a clear constant term. -/
theorem test_verify_v17_v18 :
    verifyOf (bs [0, 0, 1, 1, 0]) g1 = true ∧ verifyOf (bs [0, 1, 1, 0, 0]) (bs [1, 1, 0]) = true := by decide

/-- The step that serves RST takes an idle engine to the reset registers. -/
theorem test_reset_step :
    (after (step (loaded g4).requestReset)).map (fun t => (t.gv, t.r, t.statusPort, t.rst)) =
      some (false, 0, 0#32, false) := by decide

/-! ## Host side (R32, R61, R62) -/

theorem test_byte_expansion : bytesBits [0x48#8, 0x69#8] = bs [0, 1, 0, 0, 1, 0, 0, 0, 0, 1, 1, 0, 1, 0, 0, 1] := by decide

/-- A COMPUTE line with hex bytes and a comment; a bit literal; an operand that is no bit string. -/
theorem test_parse_lines :
    parseLine ("COMPUTE x".toList ++ [quoteChar, '4', '1', quoteChar] ++ "  ; one byte".toList) = .ok (.compute (.hex [0x41#8])) ∧
    parseLine ("VERIFY  ".toList ++ [quoteChar, '1', '0', quoteChar]) = .ok (.verify (.bits (bs [1, 0]))) ∧
    parseLine ("LOADGEN ".toList ++ [quoteChar, '2', quoteChar]) = .error .badOperand ∧
    parseLine "DIVSTEP".toList = .error .unknownMnemonic := by decide

theorem test_expected_text :
    expectedText (.compute 1) { status := .ok, val := 2, data := bs [1, 0] } =
      "OK ".toList ++ [quoteChar, '1', '0', quoteChar] ∧
    expectedText .degree { status := .ok, val := 16, data := [] } = "OK 16".toList ∧
    expectedText (.verify 3) { status := .frameTooShort, val := 0, data := [] } = "FrameTooShort".toList := by decide

/-! ## Witnesses: a state and operands that meet the hypotheses of each statement, clause by clause -/

theorem witness_DecodeOfEncodeIsIdentity :
    (Instr.loadgen (2 ^ 30 - 1)).wf = true ∧ (Instr.verify 0).wf = true ∧ Instr.degree.wf = true ∧
    Command.wf ⟨.compute 4, bs [1, 0, 1, 1]⟩ = true ∧ Command.wf ⟨.loadgen 0, []⟩ = true ∧ Command.wf ⟨.degree, []⟩ = true := by
  decide

theorem witness_HeaderIsOpcAndLen :
    (Instr.loadgen 0).wf = true ∧ (Instr.compute (2 ^ 30 - 1)).wf = true ∧ (Instr.verify 14).wf = true := by decide

theorem witness_DegreeIgnoresItsLenField :
    opcField 0x40000000#32 = 0b01#2 ∧ opcField 0x7FFFFFFF#32 = 0b01#2 ∧
    (∃ t, exec .degree (given (loaded g4) .degree (bs [1])) = .next t) ∧ (∃ t, exec .degree fresh = .next t) :=
  ⟨by decide, by decide, ⟨_, rfl⟩, ⟨_, rfl⟩⟩

theorem witness_FrameDecodingTakesExactlyLenBits :
    (bs [1, 0, 1] = bs [1, 0] ++ bs [1] ∧ (bs [1, 0]).length = (decode 0xC0000002#32).operandLen) ∧
    (bs [1, 0] = [] ++ bs [1, 0] ∧ ([] : BitSeq).length = (decode 0x40000002#32).operandLen) ∧
    (bs [1]).length < (decode 0xC0000002#32).operandLen := by decide

theorem witness_ResponseHeaderLayout :
    Response.val ⟨.ok, 2 ^ 30 - 1, []⟩ < 2 ^ 30 ∧ Response.val ⟨.frameTooShort, 0, []⟩ < 2 ^ 30 := by decide

/-- A step that answers nothing, one that answers without bits, one that answers with bits. -/
theorem witness_OnlyTabledResponsesAreEmitted :
    (computeStart.Inv ∧ ∃ t, step computeStart = .next t ∧ t.rsp = []) ∧
    ((given (loaded g4) .degree []).Inv ∧ ∃ t, step (given (loaded g4) .degree []) = .next t ∧ t.rsp.length = 1 ∧ t.dout = []) ∧
    (computeEnd.Inv ∧ ∃ t, step computeEnd = .next t ∧ t.rsp.length = 1 ∧ t.dout.length = 4) :=
  ⟨⟨computeStart_inv, _, rfl, by decide⟩, ⟨inv_of (by decide), _, rfl, by decide⟩, ⟨computeEnd_inv, _, rfl, by decide⟩⟩

theorem witness_AssembledLineHeaders :
    (AsmOperand.bits []).toBits.length < 2 ^ 30 ∧ (AsmOperand.hex [0x48#8, 0x69#8]).toBits.length < 2 ^ 30 := by decide

theorem witness_BytesExpandMostSignificantFirst :
    ([0x48#8, 0x69#8] : List (BitVec 8))[1]? = some 0x69#8 ∧ 7 < 8 ∧ 0 < 8 := by decide

/-- A generator of RMAX + 1 bits, the shortest generator, the empty sequence, a clear leading bit, a host that is not ready. -/
theorem witness_LoadgenConstructsOrRejects :
    ((given fresh (.loadgen 17) g16).Presents g16 [] ∧ g16.length - 1 ≤ fresh.cfg.rmax ∧ g16.head? = some true) ∧
    ((given fresh (.loadgen 1) g0).Presents g0 [] ∧ g0.head? = some true) ∧
    ((given fresh (.loadgen 0) []).Presents [] [] ∧ ([] : BitSeq).head? ≠ some true) ∧
    ((given (fresh.setReady false) (.loadgen 1) (bs [0])).Presents (bs [0]) [] ∧ (bs [0]).head? ≠ some true) :=
  ⟨⟨presents_of (by decide), by decide, by decide⟩, ⟨presents_of (by decide), by decide⟩,
    ⟨presents_of (by decide), by decide⟩, ⟨presents_of (by decide), by decide⟩⟩

theorem witness_FailedLoadgenKeepsGenerator :
    (given (loaded g4) (.loadgen 4) (bs [0, 0, 1, 1] ++ bs [1, 0])).Presents (bs [0, 0, 1, 1]) (bs [1, 0]) ∧
    (bs [0, 0, 1, 1]).length - 1 ≤ small.rmax ∧ (bs [0, 0, 1, 1]).head? ≠ some true ∧
    (loaded g4).gv = true ∧ (loaded g4).rspReady = true ∧ bs [1, 0] = bs [1, 0] ++ [] ∧ bs [1, 0] ≠ [] ∧
    (bs [1, 0]).length + (loaded g4).r ≤ small.lmax :=
  ⟨presents_of (by decide), by decide⟩

theorem witness_DegreeAnswersTheDegree :
    ((loaded g16).ph = .idle ∧ (loaded g16).pend = none ∧ (loaded g16).gv = true) ∧
    (fresh.ph = .idle ∧ fresh.pend = none ∧ fresh.gv = false) := by decide

/-- Frames of R bits and of R - 1 bits. -/
theorem witness_DegreeIsRemainderLength :
    (given (loaded g4) (.verify 4) (zeros 4)).Inv ∧ (loaded g4).gv = true ∧
    (given (loaded g4) (.verify 4) (zeros 4)).Presents (zeros 4) [] ∧
    (given (loaded g4) (.verify 3) (zeros 3)).Inv ∧ (given (loaded g4) (.verify 3) (zeros 3)).Presents (zeros 3) [] ∧
    (zeros 4).length ≤ small.lmax ∧ (loaded g4).r ≤ (zeros 4).length ∧ (zeros 3).length < (loaded g4).r :=
  ⟨inv_of (by decide), by decide, presents_of (by decide), inv_of (by decide), presents_of (by decide), by decide⟩

theorem witness_GeneratorRegisterStaysValid :
    (((loaded g4).gv = true → (loaded g4).gen.head? = some true ∧ (loaded g4).r ≤ small.rmax) ∧
      (∃ t, step (given (loaded g4) (.loadgen 17) g16) = .next t ∧ t.gv = true) ∧
      (∃ t, step (given (loaded g4) .degree []) = .next t ∧ t.gv = true)) ∧
    ((given fresh (.loadgen 0) []).Presents [] [] ∧ ∃ t, exec (.loadgen 0) (given fresh (.loadgen 0) []) = .next t) ∧
    ((given fresh (.loadgen 17) g16).Presents (true :: g16.tail) [] ∧ g16.tail.length ≤ small.rmax) :=
  ⟨⟨by decide, ⟨_, rfl, by decide⟩, ⟨_, rfl, by decide⟩⟩, ⟨presents_of (by decide), _, rfl⟩, presents_of (by decide), by decide⟩

/-- A LOADGEN, a reset, and a step that leaves the generator alone. -/
theorem witness_OnlyLoadgenAndResetWriteGenerator :
    (∃ t, step (given (loaded g4) (.loadgen 4) g3) = .next t ∧ t.r = 3) ∧
    (∃ t, step (loaded g4).requestReset = .next t ∧ t.gv = false) ∧
    (∃ t, step computeStart = .next t ∧ t.gen = g4) :=
  ⟨⟨_, rfl, by decide⟩, ⟨_, rfl, by decide⟩, ⟨_, rfl, by decide⟩⟩

/-- A tested bit that is 1, one that is 0 (V42), and R = 0. -/
theorem witness_DivstepProcessesOnePosition :
    (computeStart.Inv ∧ computeStart.rst = false ∧ computeStart.ph = .scan ∧ computeStart.pos < computeStart.npos ∧
      computeStart.buf[computeStart.pos]? = some true) ∧
    ((scanning g4 (bs [0, 0, 0, 0, 0, 0, 1, 1, 1, 1, 0, 0, 0, 0]) 10 2 .compute).Inv ∧
      (scanning g4 (bs [0, 0, 0, 0, 0, 0, 1, 1, 1, 1, 0, 0, 0, 0]) 10 2 .compute).buf[2]? = some false) ∧
    (verifyDegreeZero.Inv ∧ verifyDegreeZero.pos < verifyDegreeZero.npos ∧ verifyDegreeZero.r = 0) :=
  ⟨⟨computeStart_inv, by decide⟩, ⟨inv_of (by decide), by decide⟩, verifyDegreeZero_inv, by decide⟩

/-- ACCEPT, a DIVSTEP and a COMPLETE. -/
theorem witness_PositionAdvancesByOne :
    ((given (loaded g4) (.compute 1) (bs [1])).Inv ∧
      ∃ t, step (given (loaded g4) (.compute 1) (bs [1])) = .next t ∧ t.ph = .scan) ∧
    (computeStart.Inv ∧ ∃ t, step computeStart = .next t ∧ t.ph = .scan) ∧
    (computeEnd.Inv ∧ ∃ t, step computeEnd = .next t ∧ t.ph = .idle) :=
  ⟨⟨inv_of (by decide), _, rfl, by decide⟩, ⟨computeStart_inv, _, rfl, by decide⟩, ⟨computeEnd_inv, _, rfl, by decide⟩⟩

theorem witness_ScanComputesDivide :
    (computeStart.Inv ∧ computeStart.rst = false ∧ computeStart.ph = .scan ∧ computeStart.pos = 0) ∧
    (verifyShortest.Inv ∧ verifyShortest.rst = false ∧ verifyShortest.ph = .scan ∧ verifyShortest.pos = 0 ∧
      verifyShortest.npos = 0) :=
  ⟨⟨computeStart_inv, by decide⟩, verifyShortest_inv, by decide⟩

theorem valid_g4 : ValidGenerator g4 := by unfold ValidGenerator; decide
theorem valid_g0 : ValidGenerator g0 := by unfold ValidGenerator; decide

theorem witness_DivideIsPolynomialRemainder :
    ValidGenerator g4 ∧ g4.length - 1 ≤ (zeros 4).length ∧ ValidGenerator g0 ∧ g0.length - 1 ≤ ([] : BitSeq).length :=
  ⟨valid_g4, by decide, valid_g0, by decide⟩

theorem waiting_inv : waiting.Inv :=
  ⟨by decide, by decide, by decide, by decide, by decide, by decide, by decide, by decide, by decide, by decide,
    by decide, by decide, by decide, by decide, fun m hm => by
      obtain rfl : m = answered := by simpa [waiting] using hm.symm
      decide⟩

theorem witness_NoStepFaults : computeStart.Inv ∧ computeEnd.Inv ∧ fresh.Inv ∧ waiting.Inv :=
  ⟨computeStart_inv, computeEnd_inv, fresh_inv, waiting_inv⟩

theorem witness_CompleteFrame :
    (computeEnd.Inv ∧ computeEnd.rst = false ∧ computeEnd.ph = .scan ∧ computeEnd.pos = computeEnd.npos) ∧
    (verifyShortest.Inv ∧ verifyShortest.rst = false ∧ verifyShortest.ph = .scan ∧
      verifyShortest.pos = verifyShortest.npos) ∧ 0 < 1 :=
  ⟨⟨computeEnd_inv, by decide⟩, ⟨verifyShortest_inv, by decide⟩, by decide⟩

/-- An idle engine that loads a buffer, a DIVSTEP and a COMPLETE; `0 < n` at its least value. -/
theorem witness_BufferIsTransient :
    ((given (loaded g4) (.compute 1) (bs [1])).BufTransient ∧
      ∃ t, step (given (loaded g4) (.compute 1) (bs [1])) = .next t ∧ t.ph = .scan) ∧
    (computeStart.BufTransient ∧ ∃ t, step computeStart = .next t ∧ t.ph = .scan) ∧
    (computeEnd.BufTransient ∧ ∃ t, step computeEnd = .next t ∧ t.ph = .idle) ∧ 0 < 1 :=
  ⟨⟨⟨by decide, by decide⟩, _, rfl, by decide⟩, ⟨⟨by decide, by decide⟩, _, rfl, by decide⟩,
    ⟨⟨by decide, by decide⟩, _, rfl, by decide⟩, by decide⟩

/-- No generator; an empty payload; a payload that with sixteen zeros fills the buffer. -/
theorem witness_ComputeAcceptLoadsOrRejects :
    ((given fresh (.compute 0) []).Presents [] [] ∧ ([] : BitSeq).length + fresh.r ≤ small.lmax ∧ fresh.gv = false) ∧
    ((given (loaded g4) (.compute 0) []).Presents [] [] ∧ ([] : BitSeq).length + (loaded g4).r ≤ small.lmax ∧
      (loaded g4).gv = true) ∧
    ((given (loaded g16) (.compute 1) (bs [1])).Presents (bs [1]) [] ∧ (bs [1]).length + (loaded g16).r = small.lmax ∧
      (loaded g16).gv = true ∧ bs [1] ≠ []) :=
  ⟨⟨presents_of (by decide), by decide⟩, ⟨presents_of (by decide), by decide⟩, presents_of (by decide), by decide⟩

theorem witness_ComputeCompleteReturnsRemainder :
    computeEnd.Inv ∧ computeEnd.rst = false ∧ computeEnd.ph = .scan ∧ computeEnd.opl = .compute ∧
    computeEnd.pos = computeEnd.npos := ⟨computeEnd_inv, by decide⟩

theorem witness_ComputeCommandReturnsCompute :
    (given (loaded g16) (.compute 1) (bs [1])).Inv ∧ (loaded g16).rst = false ∧
    (given (loaded g16) (.compute 1) (bs [1])).Presents (bs [1]) [] ∧ (loaded g16).gv = true ∧ bs [1] ≠ [] ∧
    (bs [1]).length < 2 ^ 30 ∧ (bs [1]).length + (loaded g16).r ≤ small.lmax ∧
    (given (loaded g16) (.compute 1) (bs [1])).cmd = encode (.compute 1) :: [] :=
  ⟨inv_of (by decide), by decide, presents_of (by decide), by decide⟩

theorem witness_ComputeIsShiftedRemainder : ValidGenerator g4 ∧ ValidGenerator g0 := ⟨valid_g4, valid_g0⟩

/-- No generator; a frame of R - 1 bits; a frame of R bits; a frame that fills the buffer. -/
theorem witness_VerifyAcceptLoadsOrRejects :
    ((given fresh (.verify 0) []).Presents [] [] ∧ fresh.gv = false) ∧
    ((given (loaded g4) (.verify 3) (zeros 3)).Presents (zeros 3) [] ∧ (loaded g4).gv = true ∧
      (zeros 3).length < (loaded g4).r) ∧
    ((given (loaded g4) (.verify 4) (zeros 4)).Presents (zeros 4) [] ∧ (loaded g4).r ≤ (zeros 4).length) ∧
    ((given (loaded g4) (.verify 17) (zeros 17)).Presents (zeros 17) [] ∧ (zeros 17).length = small.lmax) :=
  ⟨⟨presents_of (by decide), by decide⟩, ⟨presents_of (by decide), by decide⟩, ⟨presents_of (by decide), by decide⟩,
    presents_of (by decide), by decide⟩

/-- A remainder that is not zero, and R = 0. -/
theorem witness_VerifyCompleteTestsRemainder :
    (verifyShortest.Inv ∧ verifyShortest.rst = false ∧ verifyShortest.ph = .scan ∧ verifyShortest.opl = .verify ∧
      verifyShortest.pos = verifyShortest.npos ∧ allZero verifyShortest.remainder = false) ∧
    (verifyDegreeZeroEnd.Inv ∧ verifyDegreeZeroEnd.rst = false ∧ verifyDegreeZeroEnd.ph = .scan ∧
      verifyDegreeZeroEnd.opl = .verify ∧ verifyDegreeZeroEnd.pos = verifyDegreeZeroEnd.npos ∧ verifyDegreeZeroEnd.r = 0) :=
  ⟨⟨verifyShortest_inv, by decide⟩, verifyDegreeZeroEnd_inv, by decide⟩

theorem witness_VerifyCommandAnswersVerify :
    (given (loaded g4) (.verify 4) (zeros 4)).Inv ∧ (loaded g4).rst = false ∧
    (given (loaded g4) (.verify 4) (zeros 4)).Presents (zeros 4) [] ∧ (loaded g4).gv = true ∧
    (loaded g4).r ≤ (zeros 4).length ∧ (zeros 4).length < 2 ^ 30 ∧ (zeros 4).length ≤ small.lmax ∧
    (given (loaded g4) (.verify 4) (zeros 4)).cmd = encode (.verify 4) :: [] :=
  ⟨inv_of (by decide), by decide, presents_of (by decide), by decide⟩

theorem witness_VerifyIsDivisibility :
    ValidGenerator g4 ∧ g4.length - 1 ≤ (zeros 4).length ∧ ValidGenerator g0 ∧ g0.length - 1 ≤ ([] : BitSeq).length :=
  ⟨valid_g4, by decide, valid_g0, by decide⟩

theorem witness_VerifyComparesReceivedChecksum :
    ValidGenerator g4 ∧ g4.length - 1 < (bs [1, 0, 0, 1, 0]).length ∧ ValidGenerator g0 ∧ g0.length - 1 < (bs [1]).length :=
  ⟨valid_g4, by decide, valid_g0, by decide⟩

/-- A frame that fills the buffer, and the degree-0 generator. -/
theorem witness_RoundTripAlwaysVerifies :
    fresh.Inv ∧ fresh.rst = false ∧ fresh.rspReady = true ∧ fresh.runEnded = true ∧ fresh.din = [] ∧
    ValidGenerator g4 ∧ zeros 13 ≠ [] ∧ g4.length - 1 ≤ small.rmax ∧ (zeros 13).length + (g4.length - 1) ≤ small.lmax ∧
    (zeros 13).length + (g4.length - 1) < 2 ^ 30 ∧ ValidGenerator g0 ∧ g0.length - 1 ≤ small.rmax :=
  ⟨fresh_inv, by decide, by decide, by decide, by decide, valid_g4, by decide, by decide, by decide, by decide, valid_g0,
    by decide⟩

/-- V22's undetected burst and V37's detected flip, as error patterns on a valid frame. -/
theorem witness_UndetectedIffErrorDivisible :
    ValidGenerator g4 ∧ g4.length - 1 ≤ (zeros 5).length ∧ g4.length = (zeros 5).length ∧
    (bs [0, 0, 0, 0, 1]).length = (zeros 5).length ∧ verifyOf (zeros 5) g4 = true :=
  ⟨valid_g4, by decide⟩

/-- The first and the last bit of a valid frame; V17's monomial generator. -/
theorem witness_SingleBitErrors :
    (ValidGenerator g4 ∧ g4.length - 1 ≤ (bs [1, 0, 0, 1, 1]).length ∧ (bs [1, 0, 0, 1, 1]).length = 0 + 1 + 4 ∧
      (bs [1, 0, 0, 1, 1]).length = 4 + 1 + 0 ∧ verifyOf (bs [1, 0, 0, 1, 1]) g4 = true ∧ 2 ≤ g4.count true) ∧
    (1 ≤ (bs [1, 0, 1, 1, 0]).length ∧ (bs [1, 0, 1, 1, 0]).length = 0 + 1 + 4 ∧ 0 < (bs [1, 0, 1, 1, 0]).length - 1 ∧
      (bs [1, 0, 1, 1, 0]).length = 3 + 1 + 1 ∧ 3 < (bs [1, 0, 1, 1, 0]).length - 1 ∧
      verifyOf (bs [1, 0, 1, 1, 0]) (true :: zeros 1) = true) :=
  ⟨⟨valid_g4, by decide⟩, by decide⟩

/-- A burst of length 1 and one of length R. -/
theorem witness_ShortBurstsAreDetected :
    ValidGenerator g4 ∧ g4.getLast? = some true ∧ g4.length - 1 ≤ (zeros 5).length ∧ 4 ≤ g4.length - 1 ∧
    Burst 1 5 (bs [0, 0, 0, 0, 1]) ∧ Burst 4 5 (bs [1, 0, 1, 1, 0]) ∧ verifyOf (zeros 5) g4 = true :=
  ⟨valid_g4, by decide, by decide, by decide, ⟨4, 0, bs [1], by decide⟩, ⟨0, 1, bs [1, 0, 1, 1], by decide⟩, by decide⟩

/-- The generator placed first and placed last (R109). -/
theorem witness_ShiftedGeneratorIsUndetected :
    ValidGenerator g4 ∧ (zeros 7).length = 0 + g4.length + 2 ∧ (zeros 7).length = 2 + g4.length + 0 ∧
    verifyOf (zeros 7) g4 = true := ⟨valid_g4, by decide⟩

theorem witness_GeneratorCheckComesFirst :
    (given fresh (.compute 0) []).Presents [] [] ∧ fresh.gv = false ∧ ([] : BitSeq).length + fresh.r ≤ small.lmax ∧
    ([] : BitSeq).length ≤ small.lmax ∧ (given fresh (.verify 17) (zeros 17)).Presents (zeros 17) [] ∧
    (zeros 17).length ≤ small.lmax :=
  ⟨presents_of (by decide), by decide, by decide, by decide, presents_of (by decide), by decide⟩

/-- A failing command of each of the three error statuses, and both kinds of scan step. -/
theorem witness_ErrorsArePrecise :
    ((given (loaded g4) (.loadgen 1) (bs [0])).Presents (bs [0]) [] ∧
      ∃ t, exec (.loadgen 1) (given (loaded g4) (.loadgen 1) (bs [0])) = .next t ∧ t.ph = .idle ∧ t.err = .invalidGenerator) ∧
    ((given (loaded g4) (.compute 0) []).Presents [] [] ∧
      ∃ t, exec (.compute 0) (given (loaded g4) (.compute 0) []) = .next t ∧ t.ph = .idle ∧ t.err = .emptyPayload) ∧
    ((given (loaded g4) (.verify 3) (zeros 3)).Presents (zeros 3) [] ∧
      ∃ t, exec (.verify 3) (given (loaded g4) (.verify 3) (zeros 3)) = .next t ∧ t.ph = .idle ∧ t.err = .frameTooShort) ∧
    (computeStart.Inv ∧ computeStart.ph = .scan ∧ computeEnd.Inv ∧ computeEnd.ph = .scan) :=
  ⟨⟨presents_of (by decide), _, rfl, by decide⟩, ⟨presents_of (by decide), _, rfl, by decide⟩,
    ⟨presents_of (by decide), _, rfl, by decide⟩, computeStart_inv, by decide, computeEnd_inv, by decide⟩

theorem witness_RaiseWritesOnlyErr :
    (given (loaded g4) (.verify 3) (zeros 3)).Presents (zeros 3) [] ∧ (zeros 3).length = (Instr.verify 3).operandLen ∧
    ∃ t, exec (.verify 3) (given (loaded g4) (.verify 3) (zeros 3)) = .next t ∧ t.ph = .idle ∧ t.err ≠ .ok :=
  ⟨presents_of (by decide), by decide, _, rfl, by decide⟩

theorem witness_EachCommandRaisesOnlyItsErrors :
    ((computeStart.rst = false ∧ computeStart.pend = none ∧ computeStart.ph = .scan) ∧
      (∃ t, step computeStart = .next t ∧ t.ph = .scan) ∧
      (computeEnd.rst = false ∧ computeEnd.pend = none ∧ computeEnd.ph = .scan) ∧
      ∃ t, step computeEnd = .next t ∧ t.ph = .idle) ∧
    ((given fresh (.loadgen 5) g4).Presents g4 [] ∧
      ∃ t, exec (.loadgen 5) (given fresh (.loadgen 5) g4) = .next t ∧ t.ph = .idle) ∧
    ((given fresh .degree []).Presents [] [] ∧ ∃ t, exec .degree (given fresh .degree []) = .next t ∧ t.ph = .idle) ∧
    ((given (loaded g0) (.compute 0) []).Presents [] [] ∧
      ∃ t, exec (.compute 0) (given (loaded g0) (.compute 0) []) = .next t ∧ t.ph = .idle) ∧
    ((given fresh (.verify 0) []).Presents [] [] ∧
      ∃ t, exec (.verify 0) (given fresh (.verify 0) []) = .next t ∧ t.ph = .idle) :=
  ⟨⟨by decide, ⟨_, rfl, by decide⟩, by decide, _, rfl, by decide⟩, ⟨presents_of (by decide), _, rfl, by decide⟩,
    ⟨presents_of (by decide), _, rfl, by decide⟩, ⟨presents_of (by decide), _, rfl, by decide⟩,
    presents_of (by decide), _, rfl, by decide⟩

theorem witness_ReadyAfterError :
    (given (given (loaded g4) (.compute 0) []) .degree []).Presents [] [] ∧ ([] : BitSeq).length = (Instr.compute 0).operandLen ∧
    (loaded g4).rst = false ∧ (loaded g4).rspReady = true ∧
    (∃ t, exec (.compute 0) (given (given (loaded g4) (.compute 0) []) .degree []) = .next t ∧ t.ph = .idle ∧ t.err ≠ .ok) ∧
    (given (given (loaded g4) (.compute 0) []) .degree []).cmd.tail = encode .degree :: [] :=
  ⟨presents_of (by decide), by decide, by decide, by decide, ⟨_, rfl, by decide⟩, by decide⟩

/-- One cell too many for each of the three commands, and no cell too many (17 bits of generator, LMAX cells). -/
theorem witness_OverCapacityIsRefused :
    ((given fresh (.loadgen 18) (zeros 18)).Presents (zeros 18) [] ∧ small.rmax < 18 - 1 ∧
      exec (.loadgen 18) (given fresh (.loadgen 18) (zeros 18)) = .refused .overCapacity) ∧
    ((given (loaded g16) (.compute 2) (zeros 2)).Presents (zeros 2) [] ∧ small.lmax < 2 + (loaded g16).r ∧
      exec (.compute 2) (given (loaded g16) (.compute 2) (zeros 2)) = .refused .overCapacity) ∧
    ((given fresh (.verify 18) (zeros 18)).Presents (zeros 18) [] ∧ small.lmax < 18 ∧
      exec (.verify 18) (given fresh (.verify 18) (zeros 18)) = .refused .overCapacity) ∧
    (∃ t, exec (.verify 17) (given fresh (.verify 17) (zeros 17)) = .next t) :=
  ⟨⟨presents_of (by decide), by decide, rfl⟩, ⟨presents_of (by decide), by decide, rfl⟩,
    ⟨presents_of (by decide), by decide, rfl⟩, _, rfl⟩

theorem reset_inv : State.reset.Inv := inv_of (by decide)

theorem witness_LargestCapacityNeverRefuses :
    State.reset.Inv ∧ State.reset.cfg = Config.largest ∧ (Instr.loadgen (2 ^ 30 - 1)).wf = true :=
  ⟨reset_inv, by decide⟩

/-- A step without a response, a response whose status is kept, a VERIFY that completes. -/
theorem witness_StatusOverwrittenByEachCompletion :
    (computeStart.Inv ∧ computeStart.rst = false ∧ computeStart.pend = none ∧ ∃ t, step computeStart = .next t) ∧
    ((given fresh .degree []).Inv ∧ ∃ t, step (given fresh .degree []) = .next t ∧ t.err = .invalidGenerator) ∧
    (verifyShortest.Inv ∧ verifyShortest.rst = false ∧ verifyShortest.pend = none ∧
      (verifyShortest.ph = .scan ∧ verifyShortest.opl = .verify) ∧ ∃ t, step verifyShortest = .next t) ∧
    (computeEnd.Inv ∧ ¬(computeEnd.ph = .scan ∧ computeEnd.opl = .verify) ∧ ∃ t, step computeEnd = .next t) :=
  ⟨⟨computeStart_inv, by decide, by decide, _, rfl⟩, ⟨inv_of (by decide), _, rfl, by decide⟩,
    ⟨verifyShortest_inv, by decide, by decide, by decide, _, rfl⟩, computeEnd_inv, by decide, _, rfl⟩

theorem witness_ResetEntersResetState :
    (loaded g4).requestReset.rst = true ∧ (loaded g4).requestReset.partlyDelivered = false ∧
    (loaded g4).requestReset.cmd = [] ∧ computeStart.requestReset.rst = true ∧
    computeStart.requestReset.partlyDelivered = false := by decide

/-- An idle engine with a response waiting and a DEGREE on CMD; two operand bits of three delivered; a scan in progress. -/
theorem witness_ResetDuringScanAbandonsCommand :
    ((given waiting .degree []).requestReset.rst = true ∧ (given waiting .degree []).requestReset.partlyDelivered = false ∧
      (given waiting .degree []).ph = .idle ∧ (given waiting .degree []).pend = some answered) ∧
    (State.requestReset { fresh with cmd := [encode (.verify 3)], din := bs [1, 0] }).rst = true ∧
    (State.requestReset { fresh with cmd := [encode (.verify 3)], din := bs [1, 0] }).partlyDelivered = true ∧
    computeStart.requestReset.rst = true ∧ computeStart.requestReset.ph = .scan ∧
    computeStart.requestReset.partlyDelivered = false := by decide

/-- A DEGREE presented during a scan; a response that waits. -/
theorem witness_CommandsAreHeldDuringScan :
    (given computeStart .degree []).Inv ∧ (given computeStart .degree []).rst = false ∧
    (given computeStart .degree []).ph = .scan ∧ 10 ≤ computeStart.npos - computeStart.pos ∧ computeStart.rspReady = true ∧
    (given computeStart .degree []).cmd = encode .degree :: [] ∧ waiting.pend ≠ none :=
  ⟨inv_of (by decide), by decide⟩

theorem witness_EngineWaitsForTheHost :
    (fresh.rst = false ∧ fresh.pend = none ∧ fresh.ph = .idle ∧ fresh.cmd = []) ∧
    fresh.din.length < (Instr.verify 1).operandLen ∧
    (waiting.rst = false ∧ waiting.pend = some answered ∧ waiting.rspReady = false) := by decide

theorem witness_WaitingResponseGoesOut :
    (waiting.setReady true).rst = false ∧ (waiting.setReady true).pend = some answered ∧
    (waiting.setReady true).rspReady = true := by decide

theorem witness_WholeFrameIsConsumed :
    (given fresh (.verify 3) (bs [1, 0, 1])).Presents (bs [1, 0, 1]) [] ∧
    (bs [1, 0, 1]).length = (Instr.verify 3).operandLen ∧
    (∃ t, exec (.verify 3) (given fresh (.verify 3) (bs [1, 0, 1])) = .next t ∧ t.err = .invalidGenerator) ∧
    (given (loaded g4) (.compute 2) (bs [1, 0])).Presents (bs [1, 0]) [] ∧
    (∃ t, exec (.compute 2) (given (loaded g4) (.compute 2) (bs [1, 0])) = .next t ∧ t.ph = .scan) :=
  ⟨presents_of (by decide), by decide, ⟨_, rfl, by decide⟩, presents_of (by decide), _, rfl, by decide⟩

/-- A command that scans and fills the buffer, and one that fails. -/
theorem witness_DeliveredCommandIsAnswered :
    ((given (loaded g16) (.compute 1) (bs [1])).Inv ∧ (loaded g16).rst = false ∧
      (given (loaded g16) (.compute 1) (bs [1])).Presents (bs [1]) [] ∧
      (bs [1]).length = (Instr.compute 1).operandLen ∧ (Instr.compute 1).wf = true ∧
      (given (loaded g16) (.compute 1) (bs [1])).cmd = encode (.compute 1) :: [] ∧
      (given (loaded g16) (.compute 1) (bs [1])).fits (.compute 1) = true) ∧
    ((given fresh .degree []).Inv ∧ (given fresh .degree []).Presents [] [] ∧
      (given fresh .degree []).cmd = encode .degree :: [] ∧ (given fresh .degree []).fits .degree = true) :=
  ⟨⟨inv_of (by decide), by decide, presents_of (by decide), by decide⟩, inv_of (by decide), presents_of (by decide), by decide⟩

/-- The same generator and frame beside different stale cells, status and capacity. -/
def other : State :=
  { loaded g4 with cfg := { rmax := 20, lmax := 40 }, gen := g4 ++ bs [1, 1], buf := zeros 30, vok := true, err := .frameTooShort }

theorem witness_ResultDependsOnlyOnGeneratorAndOperand :
    (given (loaded g4) (.verify 5) g4).Inv ∧ (given other (.verify 5) g4).Inv ∧
    (loaded g4).rst = false ∧ other.rst = false ∧
    (given (loaded g4) (.verify 5) g4).Presents g4 [] ∧ (given other (.verify 5) g4).Presents g4 [] ∧
    g4.length = (Instr.verify 5).operandLen ∧ (Instr.verify 5).wf = true ∧
    (given (loaded g4) (.verify 5) g4).cmd = encode (.verify 5) :: [] ∧
    (given other (.verify 5) g4).cmd = encode (.verify 5) :: [] ∧
    (loaded g4).gv = other.gv ∧ (loaded g4).r = other.r ∧ (loaded g4).generator = other.generator ∧
    (loaded g4).fits (.verify 5) = true ∧ other.fits (.verify 5) = true ∧ (loaded g4).gen ≠ other.gen :=
  ⟨inv_of (by decide), inv_of (by decide), by decide, by decide, presents_of (by decide), presents_of (by decide), by decide⟩

theorem witness_StepRunsTheDecodedCommand :
    (given (loaded g4) .degree []).rst = false ∧ (given (loaded g4) .degree []).pend = none ∧
    (given (loaded g4) .degree []).ph = .idle ∧ (given (loaded g4) .degree []).cmd = encode .degree :: [] := by decide

theorem witness_PlacedHeaderRuns :
    decodeTableWord 32 0x40000000 = some .degree ∧ decodeTableWord 32 0x80000003 = some (.compute 3) := by decide

theorem witness_InvariantHoldsAtReset : small.wf = true ∧ Config.largest.wf = true := by decide

/-- A step of each kind: a command accepted, a DIVSTEP, a COMPLETE, a reset. -/
theorem witness_EveryStepKeepsInvariant :
    ((given fresh (.loadgen 17) g16).Inv ∧ ∃ t, step (given fresh (.loadgen 17) g16) = .next t) ∧
    (computeStart.Inv ∧ ∃ t, step computeStart = .next t) ∧ (computeEnd.Inv ∧ ∃ t, step computeEnd = .next t) ∧
    ((loaded g4).requestReset.Inv ∧ ∃ t, step (loaded g4).requestReset = .next t) ∧ (waiting.Inv ∧ ∃ t, step waiting = .next t) :=
  ⟨⟨inv_of (by decide), _, rfl⟩, ⟨computeStart_inv, _, rfl⟩, ⟨computeEnd_inv, _, rfl⟩, ⟨inv_of (by decide), _, rfl⟩,
    waiting_inv, _, rfl⟩

theorem witness_HostActionsKeepInvariant : computeStart.Inv ∧ waiting.Inv := ⟨computeStart_inv, waiting_inv⟩

end Sys2Proof.Tests
end

section
/-! PROOFS. What accepted commands and steps do to the parameters, the generator register, the scan registers and the responses
(10_state): each said once, by a case analysis over `AcceptOutcome` and `StepOutcome`. -/

namespace Sys2Proof.Machine

variable {s t : State} {i : Instr}

/-! ## Parameters and unchanged registers -/

theorem State.Silent.refl (s : State) : s.Silent s := ⟨rfl, rfl, rfl⟩

theorem AcceptOutcome.cfg_eq (h : AcceptOutcome i s t) : t.cfg = s.cfg := by
  cases h <;> subst t <;> simp

/-- No step writes RMAX or LMAX (R4). -/
theorem step_cfg (h : step s = .next t) : t.cfg = s.cfg := by
  cases step_cases h with
  | accepted w ws hr hp hs hc he ho => exact ho.cfg_eq
  | reset hr hd h | transferred m hr hp hy h | waiting m hr hp hy h | divstep b hr hp hs hn hb h
  | complete rem hr hp hs hn hb h | noCommand hr hp hs hc h => subst h; simp

/-! ## The generator register -/

/-- The polynomial after a load is the whole loaded sequence (R11, R70). -/
theorem State.generator_loadGenerator {d : BitSeq} (hd : d.head? = some true) : (s.loadGenerator d).generator = d := by
  have hl : d.length - 1 + 1 = d.length := by
    cases d with
    | nil => cases hd
    | cons b u => simp
  simp [State.generator, hl]

/-- The state a successful LOADGEN of `d` leaves, `rest` staying on DIN (R70). -/
def State.loadgenDone (s : State) (d rest : BitSeq) : State :=
  ((s.consume rest).loadGenerator d).finish (d.length - 1) []

theorem State.generator_loadgenDone {d rest : BitSeq} (hd : d.head? = some true) :
    (s.loadgenDone d rest).generator = d :=
  generator_loadGenerator (s := s.consume rest) hd

/-- An accepted command keeps the generator register, or is a LOADGEN that loads its operand. -/
theorem AcceptOutcome.sameGen_or_loaded (h : AcceptOutcome i s t) :
    s.SameGen t ∨ ∃ d rest, i = .loadgen d.length ∧ s.din = d ++ rest ∧ d.head? = some true ∧
      d.length - 1 ≤ s.cfg.rmax ∧ t = s.loadgenDone d rest := by
  cases h with
  | loaded d rest hi' hd hi hq hv hc h => exact .inr ⟨d, rest, hi', hd, hv, hc, h⟩
  | held h why | failed d rest e hd hl hi hq he h | degree hi' hi hq hg h | compute d rest hi' hd hi hq hg hne hc h
  | verify d rest hi' hd hi hq hg hr hc h => subst h; exact .inl ⟨rfl, rfl, rfl⟩

/-- A step keeps the generator register, serves a reset, or accepts a LOADGEN that loads its operand (R13). -/
theorem step_sameGen_or_reset_or_loaded (h : step s = .next t) :
    s.SameGen t ∨ (s.rst = true ∧ t = s.afterReset) ∨
    (s.rst = false ∧ s.ph = .idle ∧ ∃ w ws d rest, s.cmd = w :: ws ∧ decode w = .loadgen d.length ∧
      s.din = d ++ rest ∧ d.head? = some true ∧ d.length - 1 ≤ s.cfg.rmax ∧ t = s.loadgenDone d rest) := by
  cases step_cases h with
  | reset hr hd h => exact .inr (.inl ⟨hr, h⟩)
  | accepted w ws hr hp hs hc he ho =>
    rcases ho.sameGen_or_loaded with hg | ⟨d, rest, hw, hd, hv, hl, ht⟩
    · exact .inl hg
    · exact .inr (.inr ⟨hr, hs, w, ws, d, rest, hc, hw, hd, hv, hl, ht⟩)
  | complete rem hr hp hs hn hb h => subst h; exact .inl ⟨by simp, by simp, by simp⟩
  | transferred m hr hp hy h | waiting m hr hp hy h | divstep b hr hp hs hn hb h | noCommand hr hp hs hc h =>
    subst h; exact .inl ⟨rfl, rfl, rfl⟩

/-- R12's invariant of the generator register. -/
def State.GenValid (s : State) : Prop := s.gv = true → s.gen.head? = some true ∧ s.r ≤ s.cfg.rmax

theorem State.GenValid.of_sameGen (hv : s.GenValid) (hg : s.SameGen t) (hc : t.cfg = s.cfg) : t.GenValid := by
  rw [State.GenValid, hg.gv, hg.gen, hg.r, hc]
  exact hv

theorem State.genValid_loadgenDone {d rest : BitSeq} (hd : d.head? = some true) (hl : d.length - 1 ≤ s.cfg.rmax) :
    (s.loadgenDone d rest).GenValid := by
  intro _
  refine ⟨?_, hl⟩
  show (storeAt 0 d s.gen).head? = some true
  simp [storeAt, hd]

theorem step_keeps_genValid (hv : s.GenValid) (h : step s = .next t) : t.GenValid := by
  rcases step_sameGen_or_reset_or_loaded h with hg | ⟨_, rfl⟩ | ⟨_, _, w, ws, d, rest, _, _, _, hd, hl, rfl⟩
  · exact hv.of_sameGen hg (step_cfg h)
  · exact fun hgv => absurd hgv (by simp)
  · exact State.genValid_loadgenDone hd hl

/-- LOADGEN of a sequence that is no generator keeps the generator register (R70). -/
theorem exec_loadgen_sameGen_of_invalid {data rest : BitSeq} (hp : s.Presents data rest) (hv : data.head? ≠ some true)
    (h : exec (.loadgen data.length) s = .next t) : s.SameGen t := by
  rcases (exec_cases h).sameGen_or_loaded with hg | ⟨d, rest', hi, hd, hd', _⟩
  · exact hg
  · have hl : data.length = d.length := Instr.loadgen.inj hi
    have hdd : data = d := (List.append_inj (hp.din.symm.trans hd) hl).1
    exact absurd (hdd ▸ hd') hv

/-- LOADGEN of a generator within capacity loads it (R70). -/
theorem exec_loadgen_of_valid {data rest : BitSeq} (hp : s.Presents data rest) (hv : data.head? = some true)
    (hl : data.length - 1 ≤ s.cfg.rmax) : exec (.loadgen data.length) s = .next (s.loadgenDone data rest) := by
  show accept data.length loadgenAct s = _
  rw [accept_of_presented hp.idle hp.quiet hp.din, loadgenAct_eq, if_neg (by simpa using hl), if_pos hv]
  rfl

/-! ## The scan registers -/

/-- An accepted command keeps the phase and the scan registers, or starts a scan at position 0 inside the buffer (R90, R100). -/
theorem AcceptOutcome.sameScan_or_started (h : AcceptOutcome i s t) :
    (t.ph = s.ph ∧ s.SameScan t) ∨
    (t.ph = .scan ∧ t.pos = 0 ∧ t.npos ≤ t.len ∧ t.len ≤ s.cfg.lmax) := by
  cases h with
  | compute d rest hi' hd hi hq hg hne hc h => subst h; exact .inr ⟨rfl, rfl, by simp, by simpa using hc⟩
  | verify d rest hi' hd hi hq hg hr hc h => subst h; exact .inr ⟨rfl, rfl, by simp, by simpa using hc⟩
  | held h why | failed d rest e hd hl hi hq he h | loaded d rest hi' hd hi hq hv hc h | degree hi' hi hq hg h =>
    subst h; exact .inl ⟨rfl, rfl, rfl, rfl, rfl, rfl⟩

/-- What a step without reset does to the phase and the positions. -/
inductive ScanOutcome (s t : State) : Prop where
  | idles (hs : s.ph = .idle) (ht : t.ph = .idle) (hp : t.pos = s.pos) (hn : t.npos = s.npos) (hl : t.len = s.len)
  | starts (hs : s.ph = .idle) (ht : t.ph = .scan) (hp : t.pos = 0) (hn : t.npos ≤ t.len) (hl : t.len ≤ s.cfg.lmax)
  | advances (hs : s.ph = .scan) (ht : t.ph = .scan) (hlt : s.pos < s.npos) (hp : t.pos = s.pos + 1)
      (hn : t.npos = s.npos) (hl : t.len = s.len)
  | ends (hs : s.ph = .scan) (ht : t.ph = .idle) (he : s.pos = s.npos) (hp : t.pos = s.pos) (hn : t.npos = s.npos)
      (hl : t.len = s.len)

theorem State.Inv.idle_of_pend {m : Response} (hI : s.Inv) (hp : s.pend = some m) : s.ph = .idle := by
  cases hs : s.ph with
  | idle => rfl
  | scan => simp [hI.scan_quiet hs] at hp

/-- The phase machine (R81): a step waits or runs a command in IDLE, starts a scan, advances it, or ends it. -/
theorem step_scanOutcome (hI : s.Inv) (hr : s.rst = false) (h : step s = .next t) : ScanOutcome s t := by
  cases step_cases h with
  | reset hr' hd h => simp [hr] at hr'
  | transferred m hr hp hy h => subst h; exact .idles (hI.idle_of_pend hp) (hI.idle_of_pend hp) rfl rfl rfl
  | waiting m hr hp hy h => subst h; exact .idles (hI.idle_of_pend hp) (hI.idle_of_pend hp) rfl rfl rfl
  | divstep b hr hp hs hn hb h => subst h; exact .advances hs hs hn rfl rfl rfl
  | complete rem hr hp hs hn hb h => subst h; exact .ends hs (by simp) hn (by simp) (by simp) (by simp)
  | noCommand hr hp hs hc h => subst h; exact .idles hs hs rfl rfl rfl
  | accepted w ws hr hp hs hc he ho =>
    rcases ho.sameScan_or_started with ⟨hph, hsame⟩ | ⟨hph, hpos, hn, hl⟩
    · exact .idles hs (hph.trans hs) hsame.pos hsame.npos hsame.len
    · exact .starts hs hph hpos hn hl

/-- The bounds of R15 are kept by every step without reset. -/
theorem step_pos_bounds (hI : s.Inv) (hr : s.rst = false) (h : step s = .next t) :
    t.pos ≤ t.npos ∧ t.npos ≤ t.len ∧ t.len ≤ t.cfg.lmax := by
  have hpos := hI.pos_le
  have hnpos := hI.npos_le
  have hlen := hI.len_le
  rw [step_cfg h]
  cases step_scanOutcome hI hr h <;> refine ⟨?_, ?_, ?_⟩ <;> omega

/-! ## Responses -/

/-- Emitting answers exactly the response (R50, R57). -/
theorem State.answered_emit (s : State) (m : Response) : s.Answered (s.emit m) m :=
  ⟨fun hy => by simp [hy], fun hn => by simp [hn]⟩

/-- An answer depends only on the response side of the state it starts from. -/
theorem State.Answered.of_channels {u : State} {m : Response} (h : u.Answered t m) (hy : u.rspReady = s.rspReady)
    (hr : u.rsp = s.rsp) (hd : u.dout = s.dout) : s.Answered t m := by
  obtain ⟨hsent, hwaits⟩ := h
  rw [hy, hr, hd] at hsent hwaits
  exact ⟨hsent, hwaits⟩

theorem State.answered_raised (s : State) (e : Status) :
    s.Answered (s.raised e) { status := e, val := 0, data := [] } :=
  ((s.setErr e).answered_emit _).of_channels rfl rfl rfl

theorem State.answered_finish (s : State) (v : Nat) (d : BitSeq) :
    s.Answered (s.finish v d) { status := .ok, val := v, data := d } :=
  ((s.setErr .ok).answered_emit _).of_channels rfl rfl rfl

theorem answered_completeCompute (s : State) (rem : BitSeq) :
    s.Answered (completeCompute rem s) { status := .ok, val := s.r, data := rem } :=
  (s.release.answered_finish _ _).of_channels rfl rfl rfl

theorem answered_completeVerify (s : State) (rem : BitSeq) :
    s.Answered (completeVerify rem s) { status := .ok, val := boolVal (allZero rem), data := [] } :=
  (({ s.release with vok := allZero rem } : State).answered_finish _ _).of_channels rfl rfl rfl

/-- An accepted command sends nothing and keeps the status, or is answered in IDLE with ST.ERR its status; never is ST.VOK
written (R20). -/
theorem AcceptOutcome.silent_or_answered (h : AcceptOutcome i s t) :
    (s.Silent t ∧ t.err = s.err ∧ t.vok = s.vok) ∨
    (∃ m : Response, s.Answered t m ∧ t.err = m.status ∧ t.ph = .idle ∧ t.vok = s.vok) := by
  cases h with
  | held h why => subst h; exact .inl ⟨.refl _, rfl, rfl⟩
  | failed d rest e hd hl hi hq he h =>
    subst h
    exact .inr ⟨_, ((s.consume rest).answered_raised e).of_channels rfl rfl rfl, rfl, hi, rfl⟩
  | loaded d rest hi' hd hi hq hv hc h =>
    subst h
    exact .inr ⟨_, (((s.consume rest).loadGenerator d).answered_finish _ _).of_channels rfl rfl rfl, rfl, hi, rfl⟩
  | degree hi' hi hq hg h =>
    subst h
    exact .inr ⟨_, ((s.consume s.din).answered_finish _ _).of_channels rfl rfl rfl, rfl, hi, rfl⟩
  | compute d rest hi' hd hi hq hg hne hc h | verify d rest hi' hd hi hq hg hr hc h =>
    subst h; exact .inl ⟨⟨rfl, rfl, rfl⟩, rfl, rfl⟩

/-- COMPLETE is answered with OK; only that of a VERIFY writes ST.VOK (R91, R101). -/
theorem State.answered_completeWith (s : State) (rem : BitSeq) :
    ∃ m : Response, s.Answered (s.completeWith rem) m ∧ m.status = .ok ∧
      (s.opl = .verify → (s.completeWith rem).vok = allZero rem) ∧
      (s.opl ≠ .verify → (s.completeWith rem).vok = s.vok) := by
  cases ho : s.opl with
  | compute =>
    have hw : s.completeWith rem = completeCompute rem s := by rw [State.completeWith, ho]
    rw [hw]
    exact ⟨_, answered_completeCompute s rem, rfl, nofun, fun _ => rfl⟩
  | verify =>
    have hw : s.completeWith rem = completeVerify rem s := by rw [State.completeWith, ho]
    rw [hw]
    exact ⟨_, answered_completeVerify s rem, rfl, fun _ => rfl, fun hne => absurd rfl hne⟩

/-- In a scan of the invariant the remainder COMPLETE reads is REM (R18). -/
theorem State.Inv.readRemainder_eq (hI : s.Inv) (hs : s.ph = .scan) : readRemainder s = .ok s.remainder :=
  readRemainder_eq_ok (by have := hI.scan_npos hs; omega) (hI.scan_written hs)

/-! ## The status port -/

/-- Bit by bit, the fields of the port (R19). -/
theorem State.statusPort_getLsbD (s : State) (k : Nat) :
    s.statusPort.getLsbD k =
      if k < 2 then s.err.code.getLsbD k
      else if k = 2 then s.vok
      else if k = 3 then s.gv
      else if k = 4 then s.busy
      else false := by
  show BitVec.getLsbD
    (0#27 ++ (BitVec.ofBool s.busy ++ (BitVec.ofBool s.gv ++ (BitVec.ofBool s.vok ++ s.err.code)))) k = _
  simp only [BitVec.getLsbD_append, BitVec.getLsbD_ofBool, BitVec.getLsbD_zero]
  match k with
  | 0 | 1 | 2 | 3 | 4 => simp
  | k + 5 => simp

/-- The port shows PH, GV, VOK and ERR and nothing else (R19). -/
theorem State.statusPort_congr (hp : t.ph = s.ph) (hg : t.gv = s.gv) (hv : t.vok = s.vok) (he : t.err = s.err) :
    t.statusPort = s.statusPort := by
  rw [State.statusPort, State.statusPort, State.busy, State.busy, hp, hg, hv, he]

end Sys2Proof.Machine

open Sys2Proof Sys2Proof.Machine

/-- Settles O15: the step lemma of R12's invariant, then the two outcomes of LOADGEN. -/
theorem generatorRegisterStaysValid : Obligations.GeneratorRegisterStaysValid := by
  refine ⟨fun s t hv h => step_keeps_genValid hv h, ?_, ?_⟩
  · rintro s t n data rest hp rfl hv h
    exact (exec_loadgen_sameGen_of_invalid hp hv h).gv
  · intro s tail rest hp hl
    exact ⟨_, exec_loadgen_of_valid hp rfl hl, rfl, State.generator_loadgenDone rfl⟩

/-- Settles O16, from the three things a step can do to the generator register. -/
theorem onlyLoadgenAndResetWriteGenerator : Obligations.OnlyLoadgenAndResetWriteGenerator := by
  intro s t h
  rcases step_sameGen_or_reset_or_loaded h with
    hg | ⟨hr, rfl⟩ | ⟨hr, hs, w, ws, d, rest, hc, hw, hd, hv, _, rfl⟩
  · exact .inl hg
  · exact .inr (.inl ⟨hr, rfl⟩)
  · exact .inr (.inr ⟨hr, hs, w, ws, d, rest, hc, hw, hd, hv, rfl, State.generator_loadgenDone hv, rfl⟩)

/-- Settles O18, from the four things a step can do to the positions. -/
theorem positionAdvancesByOne : Obligations.PositionAdvancesByOne := by
  intro s t hI hr h
  have hb := step_pos_bounds hI hr h
  cases step_scanOutcome hI hr h with
  | idles hs ht hp hn hl => simp [hs, ht, hb]
  | starts hs ht hp hn hl => simp [hs, ht, hp, hb]
  | advances hs ht hlt hp hn hl => exact ⟨by simp [hs], fun _ _ => hp, fun _ => by simp [ht, hlt.ne], hb⟩
  | ends hs ht he hp hn hl => exact ⟨by simp [hs], by simp [ht], fun _ => by simp [ht, he], hb⟩

/-- Settles O46: only a COMPLETE and an answered ACCEPT write the status. -/
theorem statusOverwrittenByEachCompletion : Obligations.StatusOverwrittenByEachCompletion := by
  intro s t hI hr hp h
  cases step_cases h with
  | reset hr' hd h => simp [hr] at hr'
  | transferred m hr hp' hy h | waiting m hr hp' hy h => simp [hp] at hp'
  | divstep b hr hp hs hn hb h => subst h; exact .inl ⟨⟨rfl, rfl, rfl⟩, rfl, rfl⟩
  | noCommand hr hp hs hc h => subst h; exact .inl ⟨.refl _, rfl, rfl⟩
  | accepted w ws hr hp hs hc he ho =>
    have hns : ¬(s.ph = .scan ∧ s.opl = .verify) := by simp [hs]
    rcases ho.silent_or_answered with hq | ⟨m, ha, hm, hph, hv⟩
    · exact .inl hq
    · exact .inr ⟨m, ha, hm, hph, fun hsv => absurd hsv hns, fun _ => hv⟩
  | complete rem hr hp hs hn hb h =>
    obtain rfl : s.remainder = rem := by simpa [hI.readRemainder_eq hs] using hb
    obtain ⟨m, ha, hm, hv, hv'⟩ := s.answered_completeWith s.remainder
    subst h
    exact .inr ⟨m, ha, by simp [hm], by simp, fun hsv => ⟨hm, hv hsv.2⟩, fun hsv => hv' fun ho => hsv ⟨hs, ho⟩⟩

/-- Settles O45: the port's five fields stand side by side, and no host action writes what they show. -/
theorem statusPortLayout : Obligations.StatusPortLayout := by
  refine ⟨fun s => ⟨?_, ?_, ?_, ?_, ?_⟩, fun s c b => ⟨?_, ?_, ?_⟩, by decide⟩
  · ext k hk
    simp [← BitVec.getLsbD_eq_getElem, BitVec.getLsbD_extractLsb', State.statusPort_getLsbD, hk]
  · exact s.statusPort_getLsbD 2
  · exact s.statusPort_getLsbD 3
  · exact s.statusPort_getLsbD 4
  · exact BitVec.extractLsb'_append_eq_left
  · exact State.statusPort_congr rfl rfl rfl rfl
  · exact State.statusPort_congr rfl rfl rfl rfl
  · exact State.statusPort_congr rfl rfl rfl rfl

end

section
/-! PROOFS. Headers as numbers, and the operand bits an accepted command takes off DIN (30_encoding). -/

namespace Sys2Proof

/-- A header as a number, from its two fields (R51). -/
theorem toNat_header_append (k : BitVec 2) (l : BitVec 30) : (k ++ l).toNat = k.toNat * 2 ^ 30 + l.toNat := by
  rw [BitVec.toNat_append, ← Nat.shiftLeft_add_eq_or_of_lt l.isLt, Nat.shiftLeft_eq]

/-- Every header is the number its two fields make (R51). -/
theorem toNat_header (h : Header) : h.toNat = (opcField h).toNat * 2 ^ 30 + lenField h := by
  conv_lhs => rw [header_eq_append h, toNat_header_append, BitVec.toNat_ofNat, Nat.mod_eq_of_lt (lenField_lt h)]

theorem Instr.opc_lt (i : Instr) : i.opc < 4 := by
  cases i <;> simp [Instr.opc]

/-- The operand length of a well-formed command fits the LEN field (R51). -/
theorem Instr.operandLen_lt {i : Instr} (h : i.wf = true) : i.operandLen < 2 ^ 30 := by
  cases i with
  | degree => decide
  | loadgen len | compute len | verify len => exact of_decide_eq_true h

theorem opcField_encode (i : Instr) : (opcField (encode i)).toNat = i.opc :=
  Laws.OpcodeField.opcField_append _ _ i.opc_lt

theorem lenField_encode {i : Instr} (h : i.wf = true) : lenField (encode i) = i.operandLen := by
  rw [encode, lenField_append, BitVec.toNat_ofNat, Nat.mod_eq_of_lt (Instr.operandLen_lt h)]

end Sys2Proof

namespace Sys2Proof.Machine

variable {s t : State} {i : Instr}

/-- An accepted command leaves DIN alone, or takes its operand off it whole (R56). -/
theorem AcceptOutcome.din_eq_or_taken (h : AcceptOutcome i s t) :
    t.din = s.din ∨ ∃ d, s.din = d ++ t.din ∧ d.length = i.operandLen := by
  cases h with
  | held h why => subst h; exact .inl rfl
  | degree hi' hi hq hg h => subst h; exact .inl rfl
  | failed d rest e hd hl hi hq he h => subst h; exact .inr ⟨d, hd, hl⟩
  | loaded d rest hi' hd hi hq hv hc h | compute d rest hi' hd hi hq hg hne hc h
  | verify d rest hi' hd hi hq hg hr hc h => subst h hi'; exact .inr ⟨d, hd, rfl⟩

/-- A command without operand consumes no DIN transfer (R54). -/
theorem exec_din_of_operandLen_zero (hi : i.operandLen = 0) (h : exec i s = .next t) : t.din = s.din := by
  rcases (exec_cases h).din_eq_or_taken with he | ⟨d, hd, hl⟩
  · exact he
  · obtain rfl : d = [] := List.length_eq_zero_iff.1 (hl.trans hi)
    exact hd.symm

end Sys2Proof.Machine

open Sys2Proof Sys2Proof.Machine

/-- Settles O4: a header is the number its two fields make, and the encoder puts OPC and LEN into them. -/
theorem headerIsOpcAndLen : Obligations.HeaderIsOpcAndLen := by
  intro i hi
  refine ⟨?_, opcField_encode i, lenField_encode hi⟩
  rw [toNat_header, opcField_encode, lenField_encode hi]

/-- Settles O5: OPC alone selects DEGREE, which has no operand to take. -/
theorem degreeIgnoresItsLenField : Obligations.DegreeIgnoresItsLenField :=
  ⟨fun _ ho => decode_of_opc_one ho, fun _ _ h => exec_din_of_operandLen_zero rfl h, by decide,
    fun _ => existsUnique_eq'⟩

end

section
/-! PROOFS. The generator commands LOADGEN and DEGREE (40_generator), with what a failing command leaves, and R as the degree of
the polynomial, the length of the remainder and the least frame length (R73). -/

namespace Sys2Proof.Machine

variable {s t : State}

/-! ## A command that fails, and one that completes with OK -/

/-- The state a command that fails with `e` leaves, `rest` staying on DIN (R56, R124). -/
def State.failedWith (s : State) (rest : BitSeq) (e : Status) : State := (s.consume rest).raised e

section failedWith
variable (s : State) (rest : BitSeq) (e : Status)

theorem State.consumed_failedWith : s.Consumed (s.failedWith rest e) rest := ⟨rfl, rfl⟩

theorem State.sameGen_failedWith : s.SameGen (s.failedWith rest e) := ⟨rfl, rfl, rfl⟩

theorem State.sameScan_failedWith : s.SameScan (s.failedWith rest e) := ⟨rfl, rfl, rfl, rfl, rfl⟩

theorem State.sameInputs_failedWith : s.SameInputs (s.failedWith rest e) := ⟨rfl, rfl, rfl⟩

theorem State.answered_failedWith : s.Answered (s.failedWith rest e) { status := e, val := 0, data := [] } :=
  ((s.consume rest).answered_raised e).of_channels rfl rfl rfl

end failedWith

theorem State.SameGen.generator_eq (h : s.SameGen t) : t.generator = s.generator := by
  rw [State.generator, State.generator, h.gen, h.r]

/-- A host that is ready leaves no response waiting, so DIN presents the next operand (R126, R146). -/
theorem State.presents_failedWith {data rest p more : BitSeq} {e : Status} (hp : s.Presents data rest)
    (hy : s.rspReady = true) (hr : rest = p ++ more) : (s.failedWith rest e).Presents p more :=
  ⟨hp.idle, ((s.answered_failedWith rest e).sent hy).2.2, hr⟩

theorem State.answered_loadgenDone (s : State) (d rest : BitSeq) :
    s.Answered (s.loadgenDone d rest) { status := .ok, val := d.length - 1, data := [] } :=
  (((s.consume rest).loadGenerator d).answered_finish _ _).of_channels rfl rfl rfl

/-- The cells above the loaded polynomial keep what they held (R70). -/
theorem State.loadgenDone_gen_getElem? (s : State) {d : BitSeq} (rest : BitSeq) {a : Nat} (ha : d.length ≤ a) :
    (s.loadgenDone d rest).gen[a]? = s.gen[a]? := by
  show (storeAt 0 d s.gen)[a]? = _
  rw [storeAt_getElem? (Nat.zero_le _), if_neg (by omega)]

/-! ## The commands on a presented operand -/

/-- LOADGEN of a sequence that is no generator fails (R70, R71). -/
theorem exec_loadgen_of_invalid {data rest : BitSeq} (hp : s.Presents data rest) (hv : data.head? ≠ some true)
    (hl : data.length - 1 ≤ s.cfg.rmax) :
    exec (.loadgen data.length) s = .next (s.failedWith rest .invalidGenerator) := by
  show accept data.length loadgenAct s = _
  rw [accept_of_presented hp.idle hp.quiet hp.din, loadgenAct_eq, if_neg (by simpa using hl), if_neg hv]
  rfl

/-- DEGREE takes nothing off DIN and answers by GV (R72). -/
theorem exec_degree_eq (hi : s.ph = .idle) (hq : s.pend = none) :
    exec .degree s = if s.gv = true then .next ((s.consume s.din).finish s.r [])
      else .next (s.failedWith s.din .invalidGenerator) :=
  (accept_of_presented (act := fun _ u => degreeAct u) (d := []) hi hq rfl).trans (degreeAct_eq _)

/-- COMPUTE of a payload within capacity loads it with R zeros behind it (R90). -/
theorem exec_compute_of_payload {data rest : BitSeq} (hp : s.Presents data rest) (hg : s.gv = true) (hne : data ≠ [])
    (hl : data.length + s.r ≤ s.cfg.lmax) :
    exec (.compute data.length) s =
      .next ((s.consume rest).loadScan .compute (data ++ zeros s.r) data.length) := by
  show accept data.length computeAct s = _
  rw [accept_of_presented hp.idle hp.quiet hp.din, computeAct_eq, if_neg (by simpa using hl), if_neg (by simp [hg]),
    if_neg hne]
  rfl

/-- VERIFY of a frame within capacity fails when it has fewer than R bits, and else loads it (R100). -/
theorem exec_verify_of_generator {data rest : BitSeq} (hp : s.Presents data rest) (hg : s.gv = true)
    (hl : data.length ≤ s.cfg.lmax) :
    exec (.verify data.length) s =
      if data.length < s.r then .next (s.failedWith rest .frameTooShort)
      else .next ((s.consume rest).loadScan .verify data (data.length - s.r)) := by
  show accept data.length verifyAct s = _
  rw [accept_of_presented hp.idle hp.quiet hp.din, verifyAct_eq, if_neg (by simpa using hl), if_neg (by simp [hg])]
  rfl

/-- The buffer of a scan just started is the loaded sequence (R37). -/
theorem State.buffer_loadScan (s : State) (op : ScanOp) (b : BitSeq) (n : Nat) : (s.loadScan op b n).buffer = b :=
  storeAt_zero_take b s.buf

/-! ## The length of a remainder -/

/-- A window update never changes the number of cells (R82). -/
@[simp] theorem reduceAt_length (g b : BitSeq) (i : Nat) : (reduceAt g b i).length = b.length := by
  unfold reduceAt
  split
  · next hb =>
    have hi : i < b.length := (List.getElem?_eq_some_iff.1 hb).1
    exact storeAt_length_of_le (by simp; omega)
  · rfl

@[simp] theorem scanFrom_length (g : BitSeq) (k i : Nat) (b : BitSeq) : (scanFrom g k i b).length = b.length := by
  induction k generalizing i b with
  | zero => rfl
  | succ k ih => rw [scanFrom, ih, reduceAt_length]

/-- `divide` returns one bit less than the generator has (R80). -/
theorem divide_length {b g : BitSeq} (h : g.length - 1 ≤ b.length) : (divide b g).length = g.length - 1 := by
  rw [divide, List.length_drop, scanFrom_length]; omega

/-- COMPUTE's zeros make every payload, the empty one included, long enough to divide (R92). -/
theorem computeOf_length (p g : BitSeq) : (computeOf p g).length = g.length - 1 :=
  divide_length (by simp)

/-! ## The degree of a bit sequence -/

theorem poly_cons_true (u : BitSeq) : poly (true :: u) = Polynomial.X ^ u.length + poly u := by simp [poly]

theorem poly_cons_false (u : BitSeq) : poly (false :: u) = poly u := by simp [poly]

/-- Every term of a sequence of `n` bits lies below `x^n` (R5). -/
theorem degree_poly_lt (b : BitSeq) : (poly b).degree < b.length := by
  induction b with
  | nil => simp [poly]
  | cons x u ih =>
    have hu : (u.length : WithBot ℕ) < (x :: u).length := by exact_mod_cast Nat.lt_succ_self u.length
    cases x with
    | false => rw [poly_cons_false]; exact ih.trans hu
    | true =>
      rw [poly_cons_true]
      refine (Polynomial.degree_add_le _ _).trans_lt (max_lt ?_ (ih.trans hu))
      rwa [Polynomial.degree_X_pow]

/-- A set leading bit is the leading term (R73). -/
theorem ValidGenerator.natDegree_poly {g : BitSeq} (hg : ValidGenerator g) : (poly g).natDegree = g.length - 1 := by
  obtain ⟨u, rfl⟩ := List.head?_eq_some_iff.1 hg
  have hlt : (poly u).degree < (Polynomial.X ^ u.length : Polynomial (ZMod 2)).degree := by
    rw [Polynomial.degree_X_pow]
    exact degree_poly_lt u
  rw [poly_cons_true, Polynomial.natDegree_add_eq_left_of_degree_lt hlt, Polynomial.natDegree_X_pow, List.length_cons,
    Nat.add_sub_cancel]

/-- In a state of the invariant with GV = 1, `GEN[0 .. R]` has all its R + 1 bits (R11, R12). -/
theorem State.Inv.generator_length (hI : s.Inv) (hg : s.gv = true) : s.generator.length = s.r + 1 := by
  rw [State.generator, List.length_take, Nat.min_eq_left (hI.gen_written hg)]

theorem State.Inv.generator_valid (hI : s.Inv) (hg : s.gv = true) : ValidGenerator s.generator := by
  rw [ValidGenerator, State.generator, List.head?_take, if_neg (Nat.succ_ne_zero _), hI.gen_leading hg]

end Sys2Proof.Machine

open Sys2Proof Sys2Proof.Machine

/-- Settles O11: the two outcomes of LOADGEN within capacity, told apart by the leading bit. -/
theorem loadgenConstructsOrRejects : Obligations.LoadgenConstructsOrRejects := by
  intro s data rest hp hl
  by_cases hv : data.head? = some true
  · exact ⟨s.loadgenDone data rest, exec_loadgen_of_valid hp hv hl, ⟨rfl, rfl⟩, ⟨rfl, rfl, rfl, rfl, rfl⟩,
      ⟨rfl, rfl, rfl⟩, hp.idle, rfl,
      fun _ => ⟨State.generator_loadgenDone hv, rfl, rfl, fun _ ha => s.loadgenDone_gen_getElem? rest ha, rfl,
        s.answered_loadgenDone data rest⟩,
      fun hn => absurd hv hn⟩
  · exact ⟨s.failedWith rest .invalidGenerator, exec_loadgen_of_invalid hp hv hl, s.consumed_failedWith rest _,
      s.sameScan_failedWith rest _, s.sameInputs_failedWith rest _, hp.idle, rfl, fun hn => absurd hn hv,
      fun _ => ⟨s.sameGen_failedWith rest _, rfl, s.answered_failedWith rest _⟩⟩

/-- Settles O12: the failure keeps the generator, and the COMPUTE that follows loads its payload against it. -/
theorem failedLoadgenKeepsGenerator : Obligations.FailedLoadgenKeepsGenerator := by
  intro s data rest hp hl hv
  have hsame := s.sameGen_failedWith rest .invalidGenerator
  refine ⟨_, exec_loadgen_of_invalid hp hv hl, hsame, hsame.generator_eq, rfl, s.answered_failedWith rest _, ?_⟩
  intro p more hg hy hr hne hc
  have hnext := State.presents_failedWith (e := .invalidGenerator) hp hy hr
  exact ⟨_, exec_compute_of_payload hnext hg hne hc, rfl, State.buffer_loadScan _ _ _ _, rfl⟩

/-- Settles O13: the two outcomes of DEGREE, told apart by GV. -/
theorem degreeAnswersTheDegree : Obligations.DegreeAnswersTheDegree := by
  intro s hi hq
  have he := exec_degree_eq hi hq
  cases hg : s.gv with
  | true =>
    rw [if_pos hg] at he
    exact ⟨_, he, ⟨rfl, rfl⟩, ⟨rfl, rfl, rfl⟩, ⟨rfl, rfl, rfl, rfl, rfl⟩, ⟨rfl, rfl, rfl⟩, hi, rfl,
      fun _ => ⟨rfl, ((s.consume s.din).answered_finish s.r []).of_channels rfl rfl rfl⟩, nofun⟩
  | false =>
    rw [if_neg (by simp [hg])] at he
    exact ⟨_, he, s.consumed_failedWith _ _, s.sameGen_failedWith _ _, s.sameScan_failedWith _ _,
      s.sameInputs_failedWith _ _, hi, rfl, nofun, fun _ => ⟨rfl, s.answered_failedWith _ _⟩⟩

/-- Settles O14: the invariant makes `GEN[0 .. R]` a generator of R + 1 bits; VERIFY splits at R. -/
theorem degreeIsRemainderLength : Obligations.DegreeIsRemainderLength := by
  intro s hI hg
  have hlen := hI.generator_length hg
  refine ⟨hlen, ?_, fun p => ?_, fun data rest hp hl => ?_⟩
  · rw [(hI.generator_valid hg).natDegree_poly, hlen, Nat.add_sub_cancel]
  · rw [computeOf_length, hlen, Nat.add_sub_cancel]
  · have he := exec_verify_of_generator hp hg hl
    by_cases hr : data.length < s.r
    · rw [if_pos hr] at he
      exact ⟨_, he, fun hn => absurd hr (Nat.not_lt.2 hn), fun _ => ⟨hp.idle, rfl⟩⟩
    · rw [if_neg hr] at he
      exact ⟨_, he, fun hn => ⟨rfl, Nat.sub_add_cancel hn⟩, fun hn => absurd hn hr⟩

end

section
/-! PROOFS. One position of the division scan (41_divider R82): what the window update leaves in every cell, and DIVSTEP as that
update of BUF with POS one larger. -/

namespace Sys2Proof.Machine

variable {s : State}

/-! ## One position of `divide` -/

/-- Every cell after one position: XORed inside the window when the tested bit is 1, else as it was (R80, R82). -/
theorem reduceAt_getElem? {g b : BitSeq} {i : Nat} (h : i + g.length ≤ b.length) (a : Nat) :
    (reduceAt g b i)[a]? =
      if b[i]? = some true ∧ i ≤ a ∧ a < i + g.length then some (xor (b[a]?.getD false) (g[a - i]?.getD false))
      else b[a]? := by
  by_cases hb : b[i]? = some true
  · have hw : ((b.drop i).take g.length).length = g.length := by simp; omega
    rw [reduceAt, if_pos hb, storeAt_getElem? (by omega), xorSeq_length, hw, Nat.min_self]
    by_cases ha : i ≤ a ∧ a < i + g.length
    · have hlt : a - i < g.length := by omega
      rw [if_pos ha, if_pos ⟨hb, ha⟩, xorSeq_getElem? hw, hw, if_pos hlt, List.getElem?_take_of_lt hlt,
        List.getElem?_drop, Nat.add_sub_cancel' ha.1]
    · rw [if_neg ha, if_neg fun hc => ha hc.2]
  · rw [reduceAt, if_neg hb, if_neg fun hc => hb hc.1]

/-- The leading 1 of the generator clears the tested cell (R84). -/
theorem reduceAt_getElem?_self {g b : BitSeq} {i : Nat} (hg : ValidGenerator g) (h : i + g.length ≤ b.length) :
    (reduceAt g b i)[i]? = some false := by
  obtain ⟨u, rfl⟩ := List.head?_eq_some_iff.1 hg
  rw [List.length_cons] at h
  have hi : i < b.length := by omega
  rw [reduceAt_getElem? h, List.getElem?_eq_getElem hi]
  cases b[i] <;> simp

/-! ## DIVSTEP in a scan of the invariant -/

/-- The state DIVSTEP leaves (R82). -/
def State.divided (s : State) : State := s.advance (reduceAt s.generator s.buf s.pos)

theorem step_of_scan (hr : s.rst = false) (hq : s.pend = none) (hs : s.ph = .scan) : step s = scanStep s := by
  simp [step, hr, hq, hs]

/-- The window `POS .. POS+R` lies inside the buffer while POS < NPOS (R16, R82). -/
theorem State.Inv.window_lt (hI : s.Inv) (hs : s.ph = .scan) (hn : s.pos < s.npos) : s.pos + s.r < s.len := by
  have hlen := hI.scan_npos hs
  omega

/-- The window fits the written cells (R82). -/
theorem State.Inv.window_le (hI : s.Inv) (hs : s.ph = .scan) (hn : s.pos < s.npos) :
    s.pos + s.generator.length ≤ s.buf.length := by
  rw [hI.generator_length (hI.scan_gv hs)]
  exact (hI.window_lt hs hn).trans_le (hI.scan_written hs)

/-- While POS < NPOS the step of a scan is DIVSTEP (R81), and its accesses are in bounds. -/
theorem step_of_pos_lt_npos (hI : s.Inv) (hr : s.rst = false) (hs : s.ph = .scan) (hn : s.pos < s.npos) :
    step s = .next s.divided := by
  have hb := divBuffer_eq_ok (hI.window_lt hs hn) (hI.scan_written hs) (hI.gen_written (hI.scan_gv hs))
  rw [step_of_scan hr (hI.scan_quiet hs) hs, scanStep, if_pos hn, divStep, hb]
  rfl

theorem State.generator_getElem? {k : Nat} (hk : k ≤ s.r) : s.generator[k]? = s.gen[k]? :=
  List.getElem?_take_of_lt (Nat.lt_succ_of_le hk)

/-- BUF after DIVSTEP, cell by cell and in the model's own registers (R82). -/
theorem State.divided_buf_getElem? (hI : s.Inv) (hs : s.ph = .scan) (hn : s.pos < s.npos) (a : Nat) :
    s.divided.buf[a]? =
      if s.buf[s.pos]? = some true ∧ s.pos ≤ a ∧ a ≤ s.pos + s.r then
        some (xor (s.buf[a]?.getD false) (s.gen[a - s.pos]?.getD false))
      else s.buf[a]? := by
  have hcell := reduceAt_getElem? (hI.window_le hs hn) a
  simp only [hI.generator_length (hI.scan_gv hs), ← Nat.add_assoc, Nat.lt_succ_iff] at hcell
  refine hcell.trans ?_
  split
  · next ha => rw [State.generator_getElem? (by omega)]
  · rfl

/-- DIVSTEP leaves the tested cell 0 (R84). -/
theorem State.divided_buf_getElem?_pos (hI : s.Inv) (hs : s.ph = .scan) (hn : s.pos < s.npos) :
    s.divided.buf[s.pos]? = some false :=
  reduceAt_getElem?_self (hI.generator_valid (hI.scan_gv hs)) (hI.window_le hs hn)

end Sys2Proof.Machine

open Sys2Proof Sys2Proof.Machine

/-- Settles O17: in a scan of the invariant DIVSTEP's accesses are in bounds, so the step answers `s.divided`, whose cells are
those of the window update; the generator's leading 1 clears the tested one. -/
theorem divstepProcessesOnePosition : Obligations.DivstepProcessesOnePosition := by
  intro s hI hr hs hn
  exact ⟨s.divided, step_of_pos_lt_npos hI hr hs hn, rfl, State.divided_buf_getElem? hI hs hn,
    State.divided_buf_getElem?_pos hI hs hn, ⟨rfl, rfl, rfl⟩, rfl, rfl, rfl, rfl, rfl, rfl, ⟨rfl, rfl, rfl⟩, ⟨rfl, rfl⟩,
    ⟨rfl, rfl, rfl⟩⟩

end

section
/-! PROOFS. ACCEPT of COMPUTE (42_compute R90): the two checks that fail, the load, and the remainder of an all-zero payload. -/

namespace Sys2Proof.Machine

variable {s : State}

/-! ## The remainder of an all-zero payload -/

/-- No bit of an all-zero buffer is set, so no position changes it (R80). -/
theorem reduceAt_zeros (g : BitSeq) (n i : Nat) : reduceAt g (zeros n) i = zeros n := by
  have hbit : (zeros n)[i]? ≠ some true := by
    rw [zeros_getElem?]
    split <;> simp
  rw [reduceAt, if_neg hbit]

theorem scanFrom_zeros (g : BitSeq) (k i n : Nat) : scanFrom g k i (zeros n) = zeros n := by
  induction k generalizing i with
  | zero => rfl
  | succ k ih => rw [scanFrom, reduceAt_zeros, ih]

theorem zeros_append_zeros (m n : Nat) : zeros m ++ zeros n = zeros (m + n) := List.replicate_append_replicate

/-- An all-zero payload, the empty one included, has the remainder zeros(r) (R90, R92). -/
theorem computeOf_zeros (n : Nat) (g : BitSeq) : computeOf (zeros n) g = zeros (g.length - 1) := by
  rw [computeOf, zeros_append_zeros, divide, scanFrom_zeros, zeros_length, zeros, List.drop_replicate,
    Nat.add_sub_cancel, Nat.add_sub_cancel_left, zeros]

/-! ## The two checks and the load -/

/-- COMPUTE within capacity fails without a generator, whatever its payload (R90, R123). -/
theorem exec_compute_of_no_generator {data rest : BitSeq} (hp : s.Presents data rest) (hg : s.gv = false)
    (hl : data.length + s.r ≤ s.cfg.lmax) :
    exec (.compute data.length) s = .next (s.failedWith rest .invalidGenerator) := by
  show accept data.length computeAct s = _
  rw [accept_of_presented hp.idle hp.quiet hp.din, computeAct_eq, if_neg (by simpa using hl),
    if_pos (by simp [hg])]
  rfl

/-- With a generator, COMPUTE of the empty payload fails (R90). -/
theorem exec_compute_of_empty {rest : BitSeq} (hp : s.Presents [] rest) (hg : s.gv = true) (hl : s.r ≤ s.cfg.lmax) :
    exec (.compute 0) s = .next (s.failedWith rest .emptyPayload) := by
  show accept ([] : BitSeq).length computeAct s = _
  rw [accept_of_presented hp.idle hp.quiet hp.din, computeAct_eq, if_neg (by simpa using hl), if_neg (by simp [hg]),
    if_pos rfl]
  rfl

/-- The cells above the loaded sequence keep what they held (R37). -/
theorem State.loadScan_buf_getElem? (s : State) (op : ScanOp) {b : BitSeq} (n : Nat) {a : Nat} (ha : b.length ≤ a) :
    (s.loadScan op b n).buf[a]? = s.buf[a]? := by
  rw [State.loadScan_buf, storeAt_getElem? (Nat.zero_le _), if_neg (by omega)]

end Sys2Proof.Machine

open Sys2Proof Sys2Proof.Machine

/-- Settles O23: the three outcomes of COMPUTE within capacity, told apart by GV and then by the payload. -/
theorem computeAcceptLoadsOrRejects : Obligations.ComputeAcceptLoadsOrRejects := by
  refine ⟨computeOf_zeros, fun s data rest hp hl => ?_⟩
  cases hg : s.gv with
  | false =>
    exact ⟨_, exec_compute_of_no_generator hp hg hl, s.consumed_failedWith rest _, s.sameGen_failedWith rest _,
      s.sameInputs_failedWith rest _, rfl,
      fun _ => ⟨s.sameScan_failedWith rest _, hp.idle, rfl, s.answered_failedWith rest _⟩, nofun, nofun⟩
  | true =>
    by_cases hd : data = []
    · subst hd
      exact ⟨_, exec_compute_of_empty hp hg (by simpa using hl), s.consumed_failedWith rest _,
        s.sameGen_failedWith rest _, s.sameInputs_failedWith rest _, rfl, nofun,
        fun _ _ => ⟨s.sameScan_failedWith rest _, hp.idle, rfl, s.answered_failedWith rest _⟩,
        fun _ hne => absurd rfl hne⟩
    · have hlen : (data ++ zeros s.r).length = data.length + s.r := by simp
      exact ⟨_, exec_compute_of_payload hp hg hd hl, ⟨rfl, rfl⟩, ⟨rfl, rfl, rfl⟩, ⟨rfl, rfl, rfl⟩, rfl, nofun,
        fun _ he => absurd he hd,
        fun _ _ => ⟨State.buffer_loadScan _ _ _ _,
          fun _ ha => (s.consume rest).loadScan_buf_getElem? _ _ (hlen.trans_le ha), hlen, rfl, rfl, rfl, rfl, rfl, rfl,
          ⟨rfl, rfl, rfl⟩⟩⟩

end

section
/-! PROOFS. VERIFY (43_verify): its ACCEPT step with the two checks that fail (R100), and the COMPLETE step of a scan with what
it makes of the remainder (R91, R101). -/

namespace Sys2Proof.Machine

variable {s : State}

/-! ## ACCEPT -/

/-- VERIFY within capacity fails without a generator, whatever its frame (R100, R123). -/
theorem exec_verify_of_no_generator {data rest : BitSeq} (hp : s.Presents data rest) (hg : s.gv = false)
    (hl : data.length ≤ s.cfg.lmax) :
    exec (.verify data.length) s = .next (s.failedWith rest .invalidGenerator) := by
  show accept data.length verifyAct s = _
  rw [accept_of_presented hp.idle hp.quiet hp.din, verifyAct_eq, if_neg (by simpa using hl), if_pos (by simp [hg])]
  rfl

/-- A sequence of exactly R bits, once loaded, is its own remainder (R100). -/
theorem State.remainder_loadScan {b : BitSeq} (op : ScanOp) (n : Nat) (hb : b.length = s.r) :
    (s.loadScan op b n).remainder = b := by
  rw [State.remainder, State.buffer_loadScan, State.loadScan_len, State.loadScan_r, hb, Nat.sub_self, List.drop_zero]

/-! ## COMPLETE -/

/-- At POS = NPOS the step of a scan is COMPLETE on REM (R81, R91, R101). -/
theorem step_of_pos_eq_npos (hI : s.Inv) (hr : s.rst = false) (hs : s.ph = .scan) (hn : s.pos = s.npos) :
    step s = .next (s.completeWith s.remainder) := by
  rw [step_of_scan hr (hI.scan_quiet hs) hs, scanStep, if_neg hn.not_lt, if_pos hn, completeStep,
    hI.readRemainder_eq hs]
  rfl

/-- In a scan of the invariant REM has exactly R bits (R18). -/
theorem State.Inv.remainder_length (hI : s.Inv) (hs : s.ph = .scan) : s.remainder.length = s.r :=
  readRemainder_length (hI.readRemainder_eq hs)

theorem State.completeWith_of_compute (ho : s.opl = .compute) (rem : BitSeq) :
    s.completeWith rem = completeCompute rem s := by
  rw [State.completeWith, ho]

theorem State.completeWith_of_verify (ho : s.opl = .verify) (rem : BitSeq) :
    s.completeWith rem = completeVerify rem s := by
  rw [State.completeWith, ho]

end Sys2Proof.Machine

open Sys2Proof Sys2Proof.Machine

/-- Settles O28: the three outcomes of VERIFY within capacity, told apart by GV and then by the frame's length. -/
theorem verifyAcceptLoadsOrRejects : Obligations.VerifyAcceptLoadsOrRejects := by
  intro s data rest hp hl
  cases hg : s.gv with
  | false =>
    exact ⟨_, exec_verify_of_no_generator hp hg hl, s.consumed_failedWith rest _, s.sameGen_failedWith rest _,
      s.sameInputs_failedWith rest _, rfl,
      fun _ => ⟨s.sameScan_failedWith rest _, hp.idle, rfl, s.answered_failedWith rest _⟩, nofun, nofun, nofun⟩
  | true =>
    have he := exec_verify_of_generator hp hg hl
    by_cases hr : data.length < s.r
    · rw [if_pos hr] at he
      exact ⟨_, he, s.consumed_failedWith rest _, s.sameGen_failedWith rest _, s.sameInputs_failedWith rest _, rfl, nofun,
        fun _ _ => ⟨s.sameScan_failedWith rest _, hp.idle, rfl, s.answered_failedWith rest _⟩,
        fun _ hn => absurd hr hn.not_gt, fun _ hn => absurd hr hn.not_lt⟩
    · rw [if_neg hr] at he
      exact ⟨_, he, ⟨rfl, rfl⟩, ⟨rfl, rfl, rfl⟩, ⟨rfl, rfl, rfl⟩, rfl, nofun, fun _ hn => absurd hn hr,
        fun _ _ => ⟨State.buffer_loadScan _ _ _ _, fun _ ha => (s.consume rest).loadScan_buf_getElem? _ _ ha, rfl, rfl, rfl,
          rfl, rfl, rfl, ⟨rfl, rfl, rfl⟩⟩,
        fun _ hn => ⟨(Nat.sub_eq_zero_of_le hn.le).symm, State.remainder_loadScan (s := s.consume rest) _ _ hn⟩⟩

/-- Settles O29: COMPLETE of a VERIFY reads REM, which has R bits, and tests them all. -/
theorem verifyCompleteTestsRemainder : Obligations.VerifyCompleteTestsRemainder := by
  intro s hI hr hs ho hn
  have hlen := hI.remainder_length hs
  have he := step_of_pos_eq_npos hI hr hs hn
  rw [State.completeWith_of_verify ho] at he
  have hzero : allZero s.remainder = true ↔ s.remainder = zeros s.r := by rw [allZero_iff, hlen]
  exact ⟨_, he, rfl, rfl, ⟨rfl, rfl, rfl⟩, rfl, answered_completeVerify s _, hzero,
    fun h0 => hzero.2 (List.eq_nil_of_length_eq_zero (hlen.trans h0) |>.trans (by rw [h0]; rfl))⟩

end

section
/-! PROOFS. `divide` is linear over XOR (41_divider), so the remainder of a payload with a checksum behind it is COMPUTE's remainder
XOR that checksum, and a frame with its own remainder behind it always verifies (R105). -/

namespace Sys2Proof.Machine

/-! ## Sequences bit by bit -/

theorem bits_ext {a b : BitSeq} (hl : a.length = b.length) (h : ∀ i : Nat, a[i]?.getD false = b[i]?.getD false) :
    a = b :=
  List.ext_getElem hl fun i ha hb => by simpa [ha, hb] using h i

theorem xorSeq_getD {a b : BitSeq} (hl : a.length = b.length) (i : Nat) :
    (xorSeq a b)[i]?.getD false = xor (a[i]?.getD false) (b[i]?.getD false) := by
  rw [xorSeq_getElem? hl]
  split
  · rfl
  · next hi => rw [List.getElem?_eq_none (by omega), List.getElem?_eq_none (by omega)]; rfl

theorem zeros_getD (n i : Nat) : (zeros n)[i]?.getD false = false := by
  rw [zeros_getElem?]; split <;> rfl

theorem xorSeq_zeros (a : BitSeq) : xorSeq a (zeros a.length) = a :=
  bits_ext (by simp) fun i => by rw [xorSeq_getD (by simp), zeros_getD, Bool.xor_false]

theorem zeros_xorSeq (a : BitSeq) : xorSeq (zeros a.length) a = a :=
  bits_ext (by simp) fun i => by rw [xorSeq_getD (by simp), zeros_getD, Bool.false_xor]

theorem xorSeq_self (a : BitSeq) : xorSeq a a = zeros a.length :=
  bits_ext (by simp) fun i => by rw [xorSeq_getD rfl, zeros_getD, Bool.xor_self]

/-- Two halves of a frame as the XOR of each half padded with zeros. -/
theorem append_eq_xorSeq (p u : BitSeq) : p ++ u = xorSeq (p ++ zeros u.length) (zeros p.length ++ u) := by
  rw [xorSeq, List.zipWith_append (by simp), ← xorSeq, ← xorSeq, xorSeq_zeros, zeros_xorSeq]

/-! ## `divide` is linear -/

/-- One position as one formula per bit: XOR with the tested bit times the generator's bit (R80). -/
theorem reduceAt_getD {g b : BitSeq} {i : Nat} (h : i + g.length ≤ b.length) (a : Nat) :
    (reduceAt g b i)[a]?.getD false =
      xor (b[a]?.getD false) (b[i]?.getD false && (decide (i ≤ a) && g[a - i]?.getD false)) := by
  rw [reduceAt_getElem? h]
  by_cases hw : i ≤ a ∧ a < i + g.length
  · rcases hb : b[i]? with _ | (_ | _) <;> simp [hw]
  · have hout : (decide (i ≤ a) && g[a - i]?.getD false) = false := by
      by_cases hi : i ≤ a
      · rw [List.getElem?_eq_none (by omega)]; simp
      · simp [hi]
    rw [if_neg fun hc => hw hc.2, hout, Bool.and_false, Bool.xor_false]

theorem reduceAt_xorSeq {g a b : BitSeq} {i : Nat} (hl : a.length = b.length) (h : i + g.length ≤ a.length) :
    reduceAt g (xorSeq a b) i = xorSeq (reduceAt g a i) (reduceAt g b i) :=
  bits_ext (by simp) fun k => by
    rw [reduceAt_getD (by simpa [← hl] using h), xorSeq_getD hl, xorSeq_getD hl, xorSeq_getD (by simpa using hl),
      reduceAt_getD h, reduceAt_getD (hl ▸ h), Bool.and_xor_distrib_right]
    simp only [Bool.xor_assoc, Bool.xor_left_comm]

theorem scanFrom_xorSeq (g : BitSeq) (k i : Nat) {a b : BitSeq} (hl : a.length = b.length)
    (h : i + k + (g.length - 1) ≤ a.length) :
    scanFrom g k i (xorSeq a b) = xorSeq (scanFrom g k i a) (scanFrom g k i b) := by
  induction k generalizing i a b with
  | zero => rfl
  | succ k ih =>
    rw [scanFrom, reduceAt_xorSeq hl (by omega), ih (i + 1) (by simpa using hl) (by simp; omega)]
    rfl

/-- Division is linear: the remainder of an XOR is the XOR of the remainders (R86, R106). -/
theorem divide_xorSeq {g a b : BitSeq} (hl : a.length = b.length) (h : g.length - 1 ≤ a.length) :
    divide (xorSeq a b) g = xorSeq (divide a g) (divide b g) := by
  have hx : (xorSeq a b).length = a.length := by simp [← hl]
  rw [divide, divide, divide, hx, ← hl, scanFrom_xorSeq g _ 0 hl (by omega), xorSeq, xorSeq, List.drop_zipWith]

/-! ## A checksum behind a payload -/

/-- Positions whose bits are all clear change nothing (R80). -/
theorem scanFrom_of_clear {g b : BitSeq} {k i : Nat} (h : ∀ j, j < i + k → b[j]? ≠ some true) :
    scanFrom g k i b = b := by
  induction k generalizing i with
  | zero => rfl
  | succ k ih => rw [scanFrom, reduceAt, if_neg (h i (by omega)), ih fun j hj => h j (by omega)]

/-- Zeros before `r` bits leave those bits as the remainder. -/
theorem divide_zeros_append {g u : BitSeq} (n : Nat) (hu : u.length = g.length - 1) : divide (zeros n ++ u) g = u := by
  have hn : (zeros n ++ u).length - (g.length - 1) = n := by simp [hu]
  have hclear : ∀ j, j < 0 + n → (zeros n ++ u)[j]? ≠ some true := by
    intro j hj
    rw [List.getElem?_append_left (by simpa using hj), zeros_getElem?, if_pos (by omega)]
    simp
  rw [divide, hn, scanFrom_of_clear hclear, List.drop_left' (by simp)]

/-- The remainder of a frame is COMPUTE's remainder of its payload XOR the checksum behind it (R104, R105). -/
theorem divide_append {g u : BitSeq} (p : BitSeq) (hu : u.length = g.length - 1) :
    divide (p ++ u) g = xorSeq (computeOf p g) u := by
  rw [append_eq_xorSeq, divide_xorSeq (by simp) (by simp; omega), divide_zeros_append _ hu, hu]
  rfl

/-- The round trip as functions (R105). -/
theorem verifyOf_mkFrame_computeOf (p g : BitSeq) : verifyOf (mkFrame p (computeOf p g)) g = true := by
  rw [verifyOf, mkFrame, divide_append p (computeOf_length p g), xorSeq_self, allZero_iff, zeros_length]

end Sys2Proof.Machine

end

section
/-! PROOFS. The invariant through the operations of a run: the host's delivery, a loaded generator, the load of a scan, DIVSTEP and
COMPLETE. -/

namespace Sys2Proof.Machine

variable {s : State}

theorem Config.rmax_lt {c : Config} (h : c.wf = true) : c.rmax < 2 ^ 30 - 1 := by
  simp only [Config.wf, Bool.and_eq_true, decide_eq_true_eq] at h
  omega

theorem Response.wf_of_ok {v : Nat} {d : BitSeq} (hv : v < 2 ^ 30) (hd : d = [] ∨ d.length = v) :
    Response.wf { status := .ok, val := v, data := d } = true := by
  simpa [Response.wf] using ⟨hd, hv⟩

/-! ## Registers the invariant does not speak of -/

theorem State.Inv.deliver (hI : s.Inv) (c : Command) : (s.deliver c).Inv := { hI with }

theorem State.Inv.consume (hI : s.Inv) (rest : BitSeq) : (s.consume rest).Inv := { hI with }

theorem State.Inv.setErr (hI : s.Inv) (e : Status) : (s.setErr e).Inv := { hI with }

/-! ## Responses -/

/-- A response of R58 given in IDLE is sent, or waits outside a scan (R146). -/
theorem State.Inv.emit (hI : s.Inv) (hs : s.ph = .idle) {m : Response} (hm : m.wf = true) : (s.emit m).Inv :=
  { hI with
    scan_quiet := fun h => by simp [hs] at h
    pend_wf := fun m' h => by
      obtain ⟨-, rfl⟩ : s.rspReady = false ∧ m = m' := by simpa using h
      exact hm }

theorem State.Inv.finish (hI : s.Inv) (hs : s.ph = .idle) {v : Nat} {d : BitSeq} (hv : v < 2 ^ 30)
    (hd : d = [] ∨ d.length = v) : (s.finish v d).Inv :=
  (hI.setErr .ok).emit hs (Response.wf_of_ok hv hd)

/-! ## The generator register -/

/-- In IDLE a sequence with a set leading bit may take the place of the generator (R12, R70). -/
theorem State.Inv.loadGenerator (hI : s.Inv) (hs : s.ph = .idle) {d : BitSeq} (hd : d.head? = some true)
    (hl : d.length - 1 ≤ s.cfg.rmax) : (s.loadGenerator d).Inv :=
  have hscan : (s.loadGenerator d).ph ≠ .scan := by simp [hs]
  { hI with
    mem_wf := memWf_loadGenerator hI.mem_wf hl
    r_le := hl
    gen_written := fun _ => by
      have hpos : 0 < d.length := List.length_pos_iff.2 fun hn => by simp [hn] at hd
      rw [State.loadGenerator_gen, State.loadGenerator_r, storeAt_length (Nat.zero_le _)]
      omega
    gen_leading := fun _ => by simp [storeAt, hd]
    r_zero := nofun
    scan_gv := fun h => absurd h hscan
    scan_npos := fun h => absurd h hscan }

theorem State.Inv.loadgenDone (hI : s.Inv) (hs : s.ph = .idle) {d : BitSeq} (rest : BitSeq) (hd : d.head? = some true)
    (hl : d.length - 1 ≤ s.cfg.rmax) : (s.loadgenDone d rest).Inv :=
  have hr := Config.rmax_lt hI.cfg_wf
  ((hI.consume rest).loadGenerator hs hd hl).finish hs (by omega) (.inl rfl)

/-! ## The scan -/

/-- The load of ACCEPT fills the buffer it announces (R14, R16). -/
theorem State.Inv.loadScan (hI : s.Inv) (hg : s.gv = true) (hq : s.pend = none) (op : ScanOp) {b : BitSeq} {n : Nat}
    (hn : n + s.r = b.length) (hl : b.length ≤ s.cfg.lmax) : (s.loadScan op b n).Inv :=
  { hI with
    mem_wf := memWf_loadScan hI.mem_wf hl
    pos_le := Nat.zero_le n
    npos_le := (Nat.le_add_right n s.r).trans_eq hn
    len_le := hl
    scan_gv := fun _ => hg
    scan_npos := fun _ => hn
    scan_written := fun _ => by
      rw [State.loadScan_len, State.loadScan_buf, storeAt_length (Nat.zero_le _)]
      omega
    scan_zero := fun _ _ ha => absurd ha (Nat.not_lt_zero _)
    scan_quiet := fun _ => hq }

/-- DIVSTEP clears the tested cell and touches none before it (R84, R85). -/
theorem State.Inv.divided (hI : s.Inv) (hs : s.ph = .scan) (hn : s.pos < s.npos) : s.divided.Inv :=
  have hlen : s.divided.buf.length = s.buf.length := reduceAt_length _ _ _
  { hI with
    mem_wf := by
      obtain ⟨hgen, hbuf⟩ := State.memWf_iff.1 hI.mem_wf
      exact State.memWf_iff.2 ⟨hgen, hlen.trans_le hbuf⟩
    pos_le := hn
    scan_written := fun _ => (hI.scan_written hs).trans_eq hlen.symm
    scan_zero := fun _ a ha => by
      rcases Nat.lt_succ_iff_lt_or_eq.1 ha with hlt | rfl
      · rw [State.divided_buf_getElem? hI hs hn, if_neg (by omega), hI.scan_zero hs a hlt]
      · exact State.divided_buf_getElem?_pos hI hs hn }

/-- The end of a scan leaves an idle engine without a buffer (R14). -/
theorem State.Inv.release (hI : s.Inv) : s.release.Inv :=
  { hI with
    mem_wf := by
      obtain ⟨hgen, -⟩ := State.memWf_iff.1 hI.mem_wf
      exact State.memWf_iff.2 ⟨hgen, Nat.zero_le _⟩
    scan_gv := nofun
    scan_npos := nofun
    scan_written := nofun
    scan_zero := nofun
    scan_quiet := nofun }

theorem State.Inv.completeCompute (hI : s.Inv) {rem : BitSeq} (hl : rem.length = s.r) : (completeCompute rem s).Inv :=
  have hr := Config.rmax_lt hI.cfg_wf
  have hle := hI.r_le
  hI.release.finish rfl (by omega) (.inr hl)

end Sys2Proof.Machine

end

section
/-! PROOFS. A whole scan as `divide` (41_divider R80, R81), and the whole commands COMPUTE (R92) and VERIFY (R102) on the engine. -/

namespace Sys2Proof

theorem decode_encode {i : Instr} (hi : i.wf = true) : decode (encode i) = i := by
  have hl := lenField_encode hi
  cases i with
  | loadgen len => exact (decode_of_opc_zero (opcField_append _ _)).trans (congrArg Instr.loadgen hl)
  | degree => exact decode_of_opc_one (opcField_append _ _)
  | compute len => exact (decode_of_opc_two (opcField_append _ _)).trans (congrArg Instr.compute hl)
  | verify len => exact (decode_of_opc_three (opcField_append _ _)).trans (congrArg Instr.verify hl)

end Sys2Proof

namespace Sys2Proof.Machine

variable {s : State}

/-! ## The scan looks at the buffer alone -/

/-- Cells above the buffer take no part in a position whose window ends inside it (R85). -/
theorem reduceAt_take {g b : BitSeq} {i n : Nat} (hi : i + g.length ≤ n) (hn : n ≤ b.length) :
    reduceAt g (b.take n) i = (reduceAt g b i).take n := by
  refine bits_ext (by simp) fun a => ?_
  rw [reduceAt_getD (by simp; omega), List.getElem?_take, List.getElem?_take, List.getElem?_take]
  by_cases ha : a < n
  · rw [if_pos ha, if_pos ha, reduceAt_getD (by omega)]
    by_cases hia : i ≤ a
    · rw [if_pos (by omega)]
    · simp [hia]
  · rw [if_neg ha, if_neg ha, List.getElem?_eq_none (l := g) (by omega)]
    simp

theorem scanFrom_take {g b : BitSeq} {n : Nat} (k i : Nat) (hi : i + k + (g.length - 1) ≤ n) (hn : n ≤ b.length) :
    scanFrom g k i (b.take n) = (scanFrom g k i b).take n := by
  induction k generalizing i b with
  | zero => rfl
  | succ k ih => rw [scanFrom, reduceAt_take (by omega) hn, ih (i + 1) (by omega) (by simpa using hn)]; rfl

/-! ## A whole scan -/

/-- The state `k` DIVSTEPs leave (R81, R82). -/
def State.scanned (s : State) (k : Nat) : State :=
  { s with buf := scanFrom s.generator k s.pos s.buf, pos := s.pos + k }

theorem State.scanned_succ (s : State) (k : Nat) : s.scanned (k + 1) = s.divided.scanned k := by
  rw [State.scanned, ← Nat.add_assoc, Nat.add_right_comm]
  rfl

theorem State.Inv.scanned {k : Nat} (hI : s.Inv) (hs : s.ph = .scan) (hk : s.pos + k ≤ s.npos) : (s.scanned k).Inv := by
  induction k generalizing s with
  | zero => exact hI
  | succ k ih =>
    rw [State.scanned_succ]
    exact ih (hI.divided hs (by omega)) hs (by simp [State.divided]; omega)

/-- While positions are left every step of a scan is a DIVSTEP, and all of them together are `scanFrom` (R81). -/
theorem runFor_scanned {k : Nat} (hI : s.Inv) (hr : s.rst = false) (hs : s.ph = .scan) (hk : s.pos + k ≤ s.npos) :
    runFor k s = .next (s.scanned k) := by
  induction k generalizing s with
  | zero => rfl
  | succ k ih =>
    have hn : s.pos < s.npos := by omega
    rw [runFor_of_step k (step_of_pos_lt_npos hI hr hs hn), State.scanned_succ]
    exact ih (hI.divided hs hn) hr hs (by simp [State.divided]; omega)

/-- After all its positions a scan holds `divide` of the loaded buffer in REM (R80, R81). -/
theorem State.Inv.remainder_scanned (hI : s.Inv) (hs : s.ph = .scan) (h0 : s.pos = 0) :
    (s.scanned s.npos).remainder = divide s.buffer s.generator := by
  have hlen := hI.scan_npos hs
  have hg := hI.generator_length (hI.scan_gv hs)
  have hb : s.buffer.length = s.len := List.length_take_of_le (hI.scan_written hs)
  have hr : s.len - s.r = s.npos := by omega
  have hscan : (s.scanned s.npos).buffer = scanFrom s.generator s.npos 0 s.buffer := by
    rw [State.buffer, State.scanned, h0]
    exact (scanFrom_take s.npos 0 (by omega) (hI.scan_written hs)).symm
  rw [divide, hb, hg, Nat.add_sub_cancel, hr, ← hscan, ← hr]
  rfl

/-- A scan from its first position to its answer: NPOS DIVSTEPs, then COMPLETE on `divide` of the buffer (R81, R91, R101). -/
theorem runFor_scan_complete (hI : s.Inv) (hr : s.rst = false) (hs : s.ph = .scan) (h0 : s.pos = 0) :
    runFor (s.npos + 1) s = .next ((s.scanned s.npos).completeWith (divide s.buffer s.generator)) := by
  have hk : s.pos + s.npos ≤ s.npos := by omega
  have hend : (s.scanned s.npos).pos = (s.scanned s.npos).npos := by simp [State.scanned, h0]
  refine runFor_append (runFor_scanned hI hr hs hk) (runFor_one ?_)
  rw [step_of_pos_eq_npos (hI.scanned hs hk) hr hs hend, hI.remainder_scanned hs h0]

/-! ## Whole commands -/

/-- An idle engine runs the command whose header stands first on CMD (R52, R146). -/
theorem step_of_header {i : Instr} {hs : List Header} (hr : s.rst = false) (hi : s.ph = .idle) (hq : s.pend = none)
    (hc : s.cmd = encode i :: hs) (hw : i.wf = true) : step s = exec i s := by
  simp [step, hr, hi, hq, State.fetch, hc, decode_encode hw]

/-- The state in which a command's scan over `b` has processed all its `n` positions, `rest` staying on DIN. -/
def State.scanEnd (s : State) (op : ScanOp) (b rest : BitSeq) (n : Nat) : State :=
  ((s.consume rest).loadScan op b n).scanned n

/-- A command whose ACCEPT loads `b` is answered from `divide` of `b` in `n + 2` steps (R81, R149). -/
theorem runFor_of_loadScan {op : ScanOp} {b rest : BitSeq} {n : Nat} (hI : s.Inv) (hr : s.rst = false)
    (hg : s.gv = true) (hq : s.pend = none) (hn : n + s.r = b.length) (hl : b.length ≤ s.cfg.lmax)
    (hstep : step s = .next ((s.consume rest).loadScan op b n)) :
    runFor (n + 2) s = .next ((s.scanEnd op b rest n).completeWith (divide b s.generator)) := by
  have hload := (hI.consume rest).loadScan hg hq op hn hl
  have hb : ((s.consume rest).loadScan op b n).buffer = b := State.buffer_loadScan _ _ _ _
  have hrun := runFor_scan_complete hload hr rfl rfl
  rw [hb] at hrun
  exact (runFor_of_step (n + 1) hstep).trans hrun

/-- The state a successful COMPUTE of `p` leaves, `rest` staying on DIN (R92). -/
def State.computeDone (s : State) (p rest : BitSeq) : State :=
  completeCompute (computeOf p s.generator) (s.scanEnd .compute (p ++ zeros s.r) rest p.length)

/-- COMPUTE from ACCEPT to COMPLETE (R92). -/
theorem runFor_compute {p rest : BitSeq} {hs : List Header} (hI : s.Inv) (hr : s.rst = false) (hp : s.Presents p rest)
    (hg : s.gv = true) (hne : p ≠ []) (hw : p.length < 2 ^ 30) (hl : p.length + s.r ≤ s.cfg.lmax)
    (hc : s.cmd = encode (.compute p.length) :: hs) : runFor (p.length + 2) s = .next (s.computeDone p rest) := by
  have hlen : p.length + s.r = (p ++ zeros s.r).length := by simp
  have hgr : s.generator.length - 1 = s.r := by rw [hI.generator_length hg, Nat.add_sub_cancel]
  have hstep := step_of_header hr hp.idle hp.quiet hc (decide_eq_true hw)
  rw [exec_compute_of_payload hp hg hne hl] at hstep
  rw [runFor_of_loadScan hI hr hg hp.quiet hlen (hlen ▸ hl) hstep, State.completeWith_of_compute rfl, State.computeDone,
    computeOf, hgr]

/-- Against a loaded generator COMPUTE returns R bits (R92). -/
theorem State.Inv.computeOf_generator_length (hI : s.Inv) (hg : s.gv = true) (p : BitSeq) :
    (computeOf p s.generator).length = s.r := by
  rw [computeOf_length, hI.generator_length hg, Nat.add_sub_cancel]

theorem State.Inv.computeDone (hI : s.Inv) (hg : s.gv = true) (hq : s.pend = none) {p : BitSeq} (rest : BitSeq)
    (hl : p.length + s.r ≤ s.cfg.lmax) : (s.computeDone p rest).Inv := by
  have hlen : p.length + s.r = (p ++ zeros s.r).length := by simp
  have hload := (hI.consume rest).loadScan hg hq .compute hlen (hlen ▸ hl)
  exact (hload.scanned rfl (Nat.zero_add _).le).completeCompute (hI.computeOf_generator_length hg p)

theorem State.answered_computeDone (s : State) (p rest : BitSeq) :
    s.Answered (s.computeDone p rest) { status := .ok, val := s.r, data := computeOf p s.generator } :=
  (answered_completeCompute (s.scanEnd .compute (p ++ zeros s.r) rest p.length) _).of_channels rfl rfl rfl

/-- The state a VERIFY of the frame `f` leaves once it has scanned, `rest` staying on DIN (R102). -/
def State.verifyDone (s : State) (f rest : BitSeq) : State :=
  completeVerify (divide f s.generator) (s.scanEnd .verify f rest (f.length - s.r))

/-- VERIFY from ACCEPT to COMPLETE (R102). -/
theorem runFor_verify {f rest : BitSeq} {hs : List Header} (hI : s.Inv) (hr : s.rst = false) (hp : s.Presents f rest)
    (hg : s.gv = true) (hle : s.r ≤ f.length) (hw : f.length < 2 ^ 30) (hl : f.length ≤ s.cfg.lmax)
    (hc : s.cmd = encode (.verify f.length) :: hs) :
    runFor (f.length - s.r + 2) s = .next (s.verifyDone f rest) := by
  have hstep := step_of_header hr hp.idle hp.quiet hc (decide_eq_true hw)
  rw [exec_verify_of_generator hp hg hl, if_neg hle.not_gt] at hstep
  rw [runFor_of_loadScan hI hr hg hp.quiet (Nat.sub_add_cancel hle) hl hstep, State.completeWith_of_verify rfl,
    State.verifyDone]

theorem State.answered_verifyDone (s : State) (f rest : BitSeq) :
    s.Answered (s.verifyDone f rest) { status := .ok, val := boolVal (verifyOf f s.generator), data := [] } :=
  (answered_completeVerify (s.scanEnd .verify f rest (f.length - s.r)) _).of_channels rfl rfl rfl

end Sys2Proof.Machine

end

section
/-! PROOFS. The round trip in command terms (43_verify R105): LOADGEN, then COMPUTE, then VERIFY of the frame the host forms. -/

namespace Sys2Proof.Machine

variable {s : State} {p g : BitSeq}

theorem State.runEnded_iff : s.runEnded = true ↔ s.ph = .idle ∧ s.pend = none ∧ s.cmd = [] := by
  simp [State.runEnded, and_assoc]

/-- The run has ended before a ready host and nothing stands on DIN: whatever the host delivers next is accepted (R145). -/
structure State.Quiescent (s : State) : Prop where
  inv : s.Inv
  rst : s.rst = false
  ready : s.rspReady = true
  ended : s.runEnded = true
  din : s.din = []

/-- A COMPUTE that stands alone on the channels leaves its remainder on DOUT and the engine quiescent (R92, R145). -/
theorem State.Inv.quiescent_computeDone (hI : s.Inv) (hr : s.rst = false) (hy : s.rspReady = true)
    (hg : s.gv = true) (hq : s.pend = none) (hl : p.length + s.r ≤ s.cfg.lmax)
    (hc : s.cmd = [encode (.compute p.length)]) :
    (s.computeDone p []).Quiescent ∧ (s.computeDone p []).dout = s.dout ++ computeOf p s.generator := by
  obtain ⟨-, hdout, hquiet⟩ := (s.answered_computeDone p []).sent hy
  have hcmd : (s.computeDone p []).cmd = [] := congrArg List.tail hc
  exact ⟨⟨hI.computeDone hg hq [] hl, hr, hy, State.runEnded_iff.2 ⟨rfl, hquiet, hcmd⟩, rfl⟩, hdout⟩

/-- LOADGEN and COMPUTE, both delivered, leave the generator loaded and the payload's remainder on DOUT (R70, R92). -/
theorem runFor_loadgen_compute (hI : s.Inv) (hr : s.rst = false) (hy : s.rspReady = true) (hp : s.Presents g p)
    (hc : s.cmd = [encode (.loadgen g.length), encode (.compute p.length)]) (hg : ValidGenerator g) (hne : p ≠ [])
    (hl : g.length - 1 ≤ s.cfg.rmax) (hlp : p.length + (g.length - 1) ≤ s.cfg.lmax)
    (hw : p.length + (g.length - 1) < 2 ^ 30) :
    ∃ t, runFor (p.length + 3) s = .next t ∧ t.Quiescent ∧ t.gv = true ∧ t.generator = g ∧ t.r = g.length - 1 ∧
      t.cfg = s.cfg ∧ t.dout = s.dout ++ computeOf p g := by
  have hppos : 0 < p.length := List.length_pos_iff.2 hne
  have hwg : g.length < 2 ^ 30 := by omega
  have hload : step s = .next (s.loadgenDone g p) :=
    (step_of_header hr hp.idle hp.quiet hc (decide_eq_true hwg)).trans (exec_loadgen_of_valid hp hg hl)
  have hI' : (s.loadgenDone g p).Inv := hI.loadgenDone hp.idle p hg hl
  have hgen : (s.loadgenDone g p).generator = g := State.generator_loadgenDone hg
  have hcmd : (s.loadgenDone g p).cmd = [encode (.compute p.length)] := congrArg List.tail hc
  obtain ⟨-, hdout, hquiet⟩ := (s.answered_loadgenDone g p).sent hy
  have hp' : (s.loadgenDone g p).Presents p [] := ⟨hp.idle, hquiet, (List.append_nil p).symm⟩
  have hrun := runFor_compute hI' hr hp' rfl hne (by omega) hlp hcmd
  obtain ⟨hend, hdout'⟩ := hI'.quiescent_computeDone hr hy rfl hquiet hlp hcmd
  rw [hgen, hdout, List.append_nil] at hdout'
  exact ⟨_, (runFor_of_step _ hload).trans hrun, hend, rfl, hgen, rfl, rfl, hdout'⟩

/-- VERIFY of a payload with its own remainder behind it answers `OK true` (R105). -/
theorem runFor_verify_mkFrame (hI : s.Inv) (hr : s.rst = false) {f rest : BitSeq} {hs : List Header}
    (hp : s.Presents f rest) (hc : s.cmd = encode (.verify f.length) :: hs) (hg : s.gv = true)
    (hf : f = mkFrame p (computeOf p s.generator)) (hl : p.length + s.r ≤ s.cfg.lmax)
    (hw : p.length + s.r < 2 ^ 30) :
    ∃ u, runFor (p.length + 2) s = .next u ∧ s.Answered u { status := .ok, val := 1, data := [] } ∧
      u.vok = true ∧ u.err = .ok := by
  have htrue : verifyOf f s.generator = true := hf ▸ verifyOf_mkFrame_computeOf p s.generator
  have hlen : f.length = p.length + s.r := by
    rw [hf, mkFrame, List.length_append, hI.computeOf_generator_length hg]
  have hrun := runFor_verify hI hr hp hg (by omega) (by omega) (by omega) hc
  have hans := s.answered_verifyDone f rest
  rw [hlen, Nat.add_sub_cancel] at hrun
  rw [htrue] at hans
  exact ⟨_, hrun, hans, htrue, rfl⟩

end Sys2Proof.Machine

open Sys2Proof Sys2Proof.Machine

/-- Settles O33: as functions, the two halves of the frame leave the same bits, which cancel; on the engine, LOADGEN and COMPUTE
leave it quiescent with the generator loaded, so the VERIFY that follows divides the frame by the same generator. -/
theorem roundTripAlwaysVerifies : Obligations.RoundTripAlwaysVerifies := by
  refine ⟨fun p g _ _ => verifyOf_mkFrame_computeOf p g, ?_⟩
  intro s p g hI hr hy hend hdin hg hne hl hlp hw
  obtain ⟨hidle, hquiet, hcmd⟩ := State.runEnded_iff.1 hend
  let s₁ := (s.deliver { instr := .loadgen g.length, data := g }).deliver { instr := .compute p.length, data := p }
  have hp₁ : s₁.Presents g p := ⟨hidle, hquiet, congrArg (· ++ g ++ p) hdin⟩
  have hc₁ : s₁.cmd = [encode (.loadgen g.length), encode (.compute p.length)] := congrArg (· ++ _ ++ _) hcmd
  obtain ⟨t, hrun, ht, hgv, hgen, hdeg, hcfg, hdout⟩ :=
    runFor_loadgen_compute ((hI.deliver _).deliver _) hr hy hp₁ hc₁ hg hne hl hlp hw
  obtain ⟨hidle', hquiet', hcmd'⟩ := State.runEnded_iff.1 ht.ended
  have hlp' : p.length + t.r ≤ t.cfg.lmax := by rw [hdeg, hcfg]; exact hlp
  let f := mkFrame p (computeOf p g)
  have hf : f = mkFrame p (computeOf p t.generator) := by rw [hgen]
  let t₁ := t.deliver { instr := .verify f.length, data := f }
  have hp' : t₁.Presents f [] := ⟨hidle', hquiet', (congrArg (· ++ f) ht.din).trans (List.append_nil f).symm⟩
  have hc' : t₁.cmd = [encode (.verify f.length)] := congrArg (· ++ _) hcmd'
  obtain ⟨u, hrun', hans, hvok, herr⟩ :=
    runFor_verify_mkFrame (ht.inv.deliver _) ht.rst hp' hc' hgv hf hlp' (hdeg ▸ hw)
  exact ⟨t, u, computeOf p g, hrun, hdout, computeOf_length p g, hrun', (hans.sent ht.ready).1, hvok, herr⟩

end

section
/-! PROOFS. Errors (60_exceptions): a presented command that ends in an error leaves exactly `failedWith`, whose registers are those
before the command but ST.ERR (R124, R125); a step of a scan never ends in one. -/

namespace Sys2Proof.Machine

variable {s t : State} {i : Instr}

/-! ## A presented command that fails -/

theorem State.Presents.canAccept {data rest : BitSeq} (hp : s.Presents data rest) : s.canAccept = true :=
  State.canAccept_iff.2 ⟨hp.idle, hp.quiet⟩

/-- A presented command is not held, so an error status in IDLE is its own failure (R124). -/
theorem exec_eq_failedWith_of_err {data rest : BitSeq} (hp : s.Presents data rest) (hl : data.length = i.operandLen)
    (h : exec i s = .next t) (hi : t.ph = .idle) (he : t.err ≠ .ok) : t = s.failedWith rest t.err := by
  cases exec_cases h with
  | held h why =>
    have hlen : ¬s.din.length < i.operandLen := by rw [hp.din, List.length_append]; omega
    simp [hp.canAccept, hlen] at why
  | failed d rest' e hd hl' hi' hq he' h =>
    obtain ⟨-, rfl⟩ := List.append_inj (hp.din.symm.trans hd) (hl.trans hl'.symm)
    subst h; rfl
  | loaded d rest' hi' hd hi'' hq hv hc h | degree hi' hi'' hq hg h => subst h; exact absurd rfl he
  | compute d rest' hi' hd hi'' hq hg hne hc h | verify d rest' hi' hd hi'' hq hg hr hc h => subst h; cases hi

/-! ## A step of a scan -/

/-- DIVSTEP keeps ST.ERR, and COMPLETE ends in IDLE with OK (R82, R91, R101, R125). -/
theorem step_scan_err (hI : s.Inv) (hr : s.rst = false) (hs : s.ph = .scan) :
    ∃ t, step s = .next t ∧ (t.ph = .scan → t.err = s.err) ∧ (t.ph = .idle → t.err = .ok) := by
  rcases hI.pos_le.lt_or_eq with hn | hn
  · have hph : s.divided.ph ≠ .idle := by simp [State.divided, hs]
    exact ⟨_, step_of_pos_lt_npos hI hr hs hn, fun _ => rfl, fun hidle => absurd hidle hph⟩
  · exact ⟨_, step_of_pos_eq_npos hI hr hs hn, by simp, by simp⟩

end Sys2Proof.Machine

open Sys2Proof Sys2Proof.Machine

/-- Settles O38: without a generator COMPUTE and VERIFY fail on any operand within capacity, and the empty sequence is no
generator. -/
theorem generatorCheckComesFirst : Obligations.GeneratorCheckComesFirst := by
  intro s data rest hp
  have hans := s.answered_failedWith rest .invalidGenerator
  refine ⟨fun hg hl => ⟨_, exec_compute_of_no_generator hp hg hl, rfl, hans⟩,
    fun hg hl => ⟨_, exec_verify_of_no_generator hp hg hl, rfl, hans⟩, ?_⟩
  rintro rfl
  exact ⟨_, exec_loadgen_of_invalid hp (by simp) (Nat.zero_le _), rfl, hans⟩

/-- Settles O39: `raise` leaves `raised`, and a command that fails leaves that after its operand was consumed. -/
theorem raiseWritesOnlyErr : Obligations.RaiseWritesOnlyErr := by
  refine ⟨fun s e => ?_, ?_⟩
  · exact ⟨s.raised e, rfl, rfl, s.answered_raised e, rfl, rfl, ⟨rfl, rfl, rfl⟩, ⟨rfl, rfl, rfl, rfl, rfl⟩,
      ⟨rfl, rfl, rfl⟩, ⟨rfl, rfl⟩⟩
  · intro i s t data rest hp hl h hi he
    rw [exec_eq_failedWith_of_err hp hl h hi he]
    exact ⟨s.answered_failedWith rest _, rfl, s.sameGen_failedWith rest _, s.sameScan_failedWith rest _,
      s.sameInputs_failedWith rest _, s.consumed_failedWith rest _⟩

/-- Settles O40: a failing command leaves `failedWith`, which keeps every register the statement names; a scan's step is DIVSTEP
or COMPLETE. -/
theorem errorsArePrecise : Obligations.ErrorsArePrecise := by
  refine ⟨?_, fun s hI hr hs => step_scan_err hI hr hs⟩
  intro i s t data rest hp hl h hi he
  rw [exec_eq_failedWith_of_err hp hl h hi he]
  exact ⟨s.sameGen_failedWith rest _, s.sameScan_failedWith rest _, rfl, rfl⟩

end

section
/-! PROOFS. Reset (70_reset_and_hazards R140) and a command held during a scan (R146). -/

namespace Sys2Proof.Machine

variable {s : State} {i : Instr}

/-! ## A scan from any of its positions to its answer -/

/-- The state in which a scan in progress has processed all the positions it had left (R81). -/
def State.scannedOut (s : State) : State := s.scanned (s.npos - s.pos)

/-- The state the COMPLETE of a scan in progress will leave (R81, R91, R101). -/
def State.scanDone (s : State) : State := s.scannedOut.completeWith s.scannedOut.remainder

/-- The positions left, one DIVSTEP each, then COMPLETE (R81). -/
theorem runFor_scanDone (hI : s.Inv) (hr : s.rst = false) (hs : s.ph = .scan) :
    runFor (s.npos - s.pos + 1) s = .next s.scanDone := by
  have hk : s.pos + (s.npos - s.pos) = s.npos := Nat.add_sub_of_le hI.pos_le
  have hend : s.scannedOut.pos = s.scannedOut.npos := hk
  exact runFor_append (runFor_scanned hI hr hs hk.le)
    (runFor_one (step_of_pos_eq_npos (hI.scanned hs hk.le) hr hs hend))

theorem State.scanDone_ph (s : State) : s.scanDone.ph = .idle := State.completeWith_ph _ _

theorem State.scanDone_rst (s : State) : s.scanDone.rst = s.rst := State.completeWith_rst _ _

theorem State.sameCommands_scanDone (s : State) : s.SameCommands s.scanDone :=
  ⟨State.completeWith_cmd _ _, State.completeWith_din _ _⟩

theorem State.sameGen_scanDone (s : State) : s.SameGen s.scanDone :=
  ⟨State.completeWith_gen _ _, State.completeWith_r _ _, State.completeWith_gv _ _⟩

/-- DIVSTEPs send nothing and COMPLETE answers with OK (R91, R101). -/
theorem State.answered_scanDone (s : State) : ∃ m : Response, s.Answered s.scanDone m ∧ m.status = .ok := by
  obtain ⟨m, hans, hok, -, -⟩ := s.scannedOut.answered_completeWith s.scannedOut.remainder
  exact ⟨m, hans.of_channels rfl rfl rfl, hok⟩

/-! ## Accepted and held commands -/

/-- An idle engine runs the command the header first on CMD decodes to (R52, R146). -/
theorem step_of_cmd {w : Header} {ws : List Header} (hr : s.rst = false) (hi : s.ph = .idle) (hq : s.pend = none)
    (hc : s.cmd = w :: ws) : step s = exec (decode w) s := by
  simp [step, hr, hi, hq, State.fetch, hc]

/-- Every command is taken through `accept` (R146). -/
theorem exec_eq_accept (i : Instr) (s : State) : ∃ act, exec i s = accept i.operandLen act s := by
  cases i with
  | loadgen n => exact ⟨loadgenAct, rfl⟩
  | degree => exact ⟨fun _ => degreeAct, rfl⟩
  | compute n => exact ⟨computeAct, rfl⟩
  | verify n => exact ⟨verifyAct, rfl⟩

/-- A command the engine cannot take is held (R146). -/
theorem exec_of_not_canAccept (h : ¬s.canAccept = true) : exec i s = .next s := by
  obtain ⟨act, hact⟩ := exec_eq_accept i s
  rw [hact, accept, if_neg h]

/-! ## Reset -/

/-- Outside a partial delivery the step serves a requested reset (R140, R142). -/
theorem step_of_rst (hr : s.rst = true) (hd : s.partlyDelivered = false) : step s = .next s.afterReset := by
  simp [step, hr, resetStep_eq, hd]

/-- ST is 0 after a reset (R24, R140). -/
theorem State.afterReset_statusPort (s : State) : s.afterReset.statusPort = 0#32 :=
  (State.statusPort_congr (s := State.reset) rfl rfl rfl rfl).trans (by decide)

end Sys2Proof.Machine

open Sys2Proof Sys2Proof.Machine

/-- Settles O49: the scan from any position is DIVSTEPs, which write BUF and POS alone, then COMPLETE, which leaves the held command
first on CMD before an idle engine; `canAccept` fails in a scan and while a response waits. -/
theorem commandsAreHeldDuringScan : Obligations.CommandsAreHeldDuringScan := by
  refine ⟨fun s hI hr hs => ⟨fun k hk => ?_, ?_⟩, fun i s h => exec_of_not_canAccept fun hacc => ?_⟩
  · have hk' : s.pos + k ≤ s.npos := by
      have hpos := hI.pos_le
      omega
    exact ⟨s.scanned k, runFor_scanned hI hr hs hk', hs, ⟨rfl, rfl⟩, ⟨rfl, rfl, rfl⟩, ⟨rfl, rfl, rfl⟩⟩
  · obtain ⟨m, hans, hok⟩ := s.answered_scanDone
    refine ⟨s.scanDone, m, runFor_scanDone hI hr hs, s.scanDone_ph, s.sameCommands_scanDone, s.sameGen_scanDone,
      hans, hok, fun w ws hy hc => ?_⟩
    obtain ⟨-, -, hquiet⟩ := hans.sent hy
    exact step_of_cmd (s.scanDone_rst.trans hr) s.scanDone_ph hquiet (s.sameCommands_scanDone.cmd.trans hc)
  · obtain ⟨hidle, hquiet⟩ := State.canAccept_iff.1 hacc
    rcases h with hscan | hpend
    · simp [hidle] at hscan
    · exact hpend hquiet

/-- Settles O47: the step that serves the request leaves `afterReset`, whose registers are those of `State.reset`. -/
theorem resetEntersResetState : Obligations.ResetEntersResetState := by
  refine ⟨fun s hr hd => ?_, by decide⟩
  exact ⟨s.afterReset, step_of_rst hr hd, rfl, rfl, rfl, rfl, rfl, rfl, s.afterReset_statusPort, rfl, rfl, rfl, rfl⟩

end

section
/-! PROOFS. Headers and frames (30_encoding): every header decodes to a well-formed command and lies in one row of the opcode map,
frames decode to the command they encode; responses as headers, and bytes as bits (20_memory section 2). -/

namespace Sys2Proof

/-! ## The opcode map -/

/-- A header holds no more LEN than its field (R51), so it decodes to a well-formed command. -/
theorem decode_wf (h : Header) : (decode h).wf = true := by
  have hl := lenField_lt h
  rcases opcField_cases h with ho | ho | ho | ho
  · rw [decode_of_opc_zero ho]; exact decide_eq_true hl
  · rw [decode_of_opc_one ho]; rfl
  · rw [decode_of_opc_two ho]; exact decide_eq_true hl
  · rw [decode_of_opc_three ho]; exact decide_eq_true hl

/-- OPC of the decoded command is the header's OPC field (R52). -/
theorem decode_opc (h : Header) : (decode h).opc = (opcField h).toNat := by
  rcases opcField_cases h with ho | ho | ho | ho
  · rw [decode_of_opc_zero ho, ho]; rfl
  · rw [decode_of_opc_one ho, ho]; rfl
  · rw [decode_of_opc_two ho, ho]; rfl
  · rw [decode_of_opc_three ho, ho]; rfl

/-- Every command but DEGREE takes its operand's length from the LEN field (R53, R54). -/
theorem decode_degree_or_operandLen (h : Header) : decode h = .degree ∨ (decode h).operandLen = lenField h := by
  rcases opcField_cases h with ho | ho | ho | ho
  · exact .inr (by rw [decode_of_opc_zero ho]; rfl)
  · exact .inl (decode_of_opc_one ho)
  · exact .inr (by rw [decode_of_opc_two ho]; rfl)
  · exact .inr (by rw [decode_of_opc_three ho]; rfl)

/-- The mask of every row of the map keeps OPC and clears LEN (R52). -/
theorem and_opcMask (h : Header) : h &&& 0xC0000000#32 = opcField h ++ 0#30 := by
  have hmask : (0xC0000000#32 : Header) = 0b11#2 ++ 0#30 := by decide
  have hones : opcField h &&& 0b11#2 = opcField h := BitVec.and_allOnes (w := 2)
  conv_lhs => rw [header_eq_append h, hmask, BitVec.and_append, hones, BitVec.and_zero]

/-- A row of the map covers exactly the headers with its OPC (R52). -/
theorem row_covers_iff {row : OpcodeRow} (hr : row ∈ opcodeTable) (h : Header) :
    row.covers h = true ↔ row.pattern = opcField h ++ 0#30 := by
  have hmask : row.mask = 0xC0000000#32 := by
    have hall : ∀ r ∈ opcodeTable, r.mask = 0xC0000000#32 := by decide
    exact hall row hr
  rw [OpcodeRow.covers, hmask, and_opcMask, beq_iff_eq, eq_comm]

/-- For each OPC the map has exactly one row (R52). -/
theorem existsUnique_row (k : BitVec 2) : ∃! row, row ∈ opcodeTable ∧ row.pattern = k ++ 0#30 := by
  have hall : ∀ k : BitVec 2, ∃ row ∈ opcodeTable, row.pattern = k ++ 0#30 ∧
      ∀ row' ∈ opcodeTable, row'.pattern = k ++ 0#30 → row' = row := by decide
  obtain ⟨row, hmem, hpat, huniq⟩ := hall k
  exact ⟨row, ⟨hmem, hpat⟩, fun row' h' => huniq row' h'.1 h'.2⟩

/-- The name of the row with a command's OPC is the command's mnemonic (R52). -/
theorem exists_row_mnemonic (i : Instr) :
    ∃ row ∈ opcodeTable, row.pattern = BitVec.ofNat 2 i.opc ++ 0#30 ∧ row.mnemonic = i.mnemonic := by
  have hall : ∀ k : Fin 4, ∃ row ∈ opcodeTable, row.pattern = BitVec.ofNat 2 k ++ 0#30 ∧
      row.mnemonic = ["LOADGEN", "DEGREE", "COMPUTE", "VERIFY"][k] := by decide
  cases i with
  | loadgen len => exact hall 0
  | degree => exact hall 1
  | compute len => exact hall 2
  | verify len => exact hall 3

theorem opcField_toNat (h : Header) : (opcField h).toNat = h.toNat / 2 ^ 30 := by
  have hl := lenField_lt h
  have hn := toNat_header h
  omega

theorem lenField_eq_mod (h : Header) : lenField h = h.toNat % 2 ^ 30 := by
  have hl := lenField_lt h
  have hn := toNat_header h
  omega

/-! ## Frames -/

/-- A frame whose operand stands first on DIN decodes to the header's command with that operand (R60). -/
theorem decodeFrame_append {h : Header} {d rest : BitSeq} (hl : d.length = (decode h).operandLen) :
    decodeFrame h (d ++ rest) = .ok ({ instr := decode h, data := d }, rest) := by
  rw [decodeFrame, ← hl, Machine.takeOperand_append]

/-- The header of a well-formed command as a number (R51). -/
theorem toNat_encode {i : Instr} (hi : i.wf = true) : (encode i).toNat = i.opc * 2 ^ 30 + i.operandLen := by
  rw [toNat_header, opcField_encode, lenField_encode hi]

end Sys2Proof

namespace Sys2Proof.Machine

/-! ## Bytes -/

theorem byteBits_getElem? (b : BitVec 8) {k : Nat} (hk : k < 8) : (byteBits b)[k]? = some (b.getLsbD (7 - k)) := by
  interval_cases k <;> rfl

theorem byteBits_length (b : BitVec 8) : (byteBits b).length = 8 := rfl

theorem bytesBits_cons (b : BitVec 8) (bs : List (BitVec 8)) : bytesBits (b :: bs) = byteBits b ++ bytesBits bs :=
  List.flatMap_cons

theorem bytesBits_length (bs : List (BitVec 8)) : (bytesBits bs).length = 8 * bs.length := by
  induction bs with
  | nil => rfl
  | cons b bs ih => rw [bytesBits_cons, List.length_append, byteBits_length, ih, List.length_cons]; omega

/-- Byte `n` of a sequence stands in elements `8n .. 8n+7` of its expansion (R32). -/
theorem bytesBits_getElem? {bs : List (BitVec 8)} {b : BitVec 8} {n k : Nat} (hb : bs[n]? = some b) (hk : k < 8) :
    (bytesBits bs)[8 * n + k]? = some (b.getLsbD (7 - k)) := by
  induction bs generalizing n with
  | nil => simp at hb
  | cons b' bs ih =>
    rw [bytesBits_cons]
    cases n with
    | zero =>
      obtain rfl : b' = b := by simpa using hb
      rw [List.getElem?_append_left (by rw [byteBits_length]; omega), Nat.mul_zero, Nat.zero_add, byteBits_getElem? _ hk]
    | succ n =>
      have hidx : 8 * (n + 1) + k - 8 = 8 * n + k := by omega
      rw [List.getElem?_append_right (by rw [byteBits_length]; omega), byteBits_length, hidx, ih (by simpa using hb)]

end Sys2Proof.Machine

open Sys2Proof Sys2Proof.Machine

/-- Settles O2: the decoder undoes the encoder, and a frame decodes to its header's command with the operand before the rest. -/
theorem decodeOfEncodeIsIdentity : Obligations.DecodeOfEncodeIsIdentity := by
  refine ⟨fun i hi => decode_encode hi, fun c rest hc => ?_⟩
  obtain ⟨hi, hl⟩ : c.instr.wf = true ∧ c.data.length = c.instr.operandLen := by simpa [Command.wf] using hc
  have hd := decode_encode hi
  rw [encodeFrame, decodeFrame_append (by rw [hd, hl]), hd]

/-- Settles O3: a row covers a header iff its pattern is the header's OPC over a cleared LEN, and the map has one such row for
each OPC. -/
theorem opcodeMapDecidesEveryHeader : Obligations.OpcodeMapDecidesEveryHeader := by
  intro h
  refine ⟨?_, ?_, (decode_opc h).trans (opcField_toNat h), ?_, decode_wf h⟩
  · obtain ⟨row, ⟨hmem, hpat⟩, huniq⟩ := existsUnique_row (opcField h)
    exact ⟨row, ⟨hmem, (row_covers_iff hmem h).2 hpat⟩,
      fun row' h' => huniq row' ⟨h'.1, (row_covers_iff h'.1 h).1 h'.2⟩⟩
  · obtain ⟨row, hmem, hpat, hname⟩ := exists_row_mnemonic (decode h)
    rw [decode_opc, BitVec.ofNat_toNat, BitVec.setWidth_eq] at hpat
    exact ⟨row, hmem, (row_covers_iff hmem h).2 hpat, hname⟩
  · rw [← lenField_eq_mod]
    exact decode_degree_or_operandLen h

/-- Settles O7: a response header is STATUS over VAL, as a command header is OPC over LEN; emitting answers exactly the
response. -/
theorem responseHeaderLayout : Obligations.ResponseHeaderLayout := by
  refine ⟨fun m hm => ?_, rfl, rfl, rfl, rfl, State.answered_emit⟩
  have hv : (BitVec.ofNat 30 m.val).toNat = m.val := by rw [BitVec.toNat_ofNat, Nat.mod_eq_of_lt hm]
  exact ⟨by rw [Response.header, toNat_header_append, hv], opcField_append _ _, (lenField_append _ _).trans hv⟩

/-- Settles O10: element k of a byte by its eight cases, and of a sequence by induction over its bytes. -/
theorem bytesExpandMostSignificantFirst : Obligations.BytesExpandMostSignificantFirst :=
  ⟨fun b _ hk => byteBits_getElem? b hk, fun _ _ _ _ hb hk => bytesBits_getElem? hb hk, bytesBits_length⟩

/-- Settles O1, by evaluating the decoder on the ten words. -/
theorem workedHeadersDecode : Obligations.WorkedHeadersDecode := by
  unfold Obligations.WorkedHeadersDecode
  decide

/-- Settles O6: DIN either starts with the announced number of bits or is shorter. -/
theorem frameDecodingTakesExactlyLenBits : Obligations.FrameDecodingTakesExactlyLenBits := by
  intro h din
  refine ⟨?_, fun hlt => ?_⟩
  · rintro d rest rfl hl
    exact decodeFrame_append hl
  · rw [decodeFrame, takeOperand_eq_none.2 hlt]

/-- Settles O9: each line's command is well formed, so its header is the number OPC and LEN make. -/
theorem assembledLineHeaders : Obligations.AssembledLineHeaders := by
  intro o ho
  have hloadgen : (Instr.loadgen o.toBits.length).wf = true := decide_eq_true ho
  have hcompute : (Instr.compute o.toBits.length).wf = true := decide_eq_true ho
  have hverify : (Instr.verify o.toBits.length).wf = true := decide_eq_true ho
  have hcommand : ∀ i : Instr, i.wf = true → o.toBits.length = i.operandLen →
      Command.wf { instr := i, data := o.toBits } = true :=
    fun i hi hl => by simp [Command.wf, hi, hl]
  have hheader : ∀ (i : Instr) (k : Nat), i.wf = true → i.opc = k → o.toBits.length = i.operandLen →
      (encode i).toNat = k * 2 ^ 30 + o.toBits.length :=
    fun i k hi hk hl => by rw [toNat_encode hi, hk, hl]
  refine ⟨?_, by decide, ?_, ?_, hcommand _ hloadgen rfl, rfl, hcommand _ hcompute rfl, hcommand _ hverify rfl⟩
  · simpa using hheader (AsmLine.loadgen o).command.instr 0 hloadgen rfl rfl
  · simpa using hheader (AsmLine.compute o).command.instr 2 hcompute rfl rfl
  · simpa using hheader (AsmLine.verify o).command.instr 3 hverify rfl rfl

end

section
/-! PROOFS. The division scan as polynomial arithmetic over GF(2) (41_divider section 3), and from it the meaning of COMPUTE and
VERIFY and the detection properties of 43_verify. -/

namespace Sys2Proof.Machine

open Polynomial

/-! ## The polynomial of a bit sequence -/

theorem poly_zeros (n : Nat) : poly (zeros n) = 0 := by
  induction n with
  | zero => rfl
  | succ n ih => exact (poly_cons_false (zeros n)).trans ih

/-- Bits that follow a sequence shift it (R5). -/
theorem poly_append (a b : BitSeq) : poly (a ++ b) = poly a * X ^ b.length + poly b := by
  induction a with
  | nil => simp [poly]
  | cons x a ih =>
    cases x with
    | false => rw [List.cons_append, poly_cons_false, poly_cons_false, ih]
    | true => rw [List.cons_append, poly_cons_true, poly_cons_true, ih, List.length_append, pow_add]; ring

/-- Zeros before a sequence add nothing, zeros behind it shift it. -/
theorem poly_zeros_append_zeros (a z : Nat) (b : BitSeq) : poly (zeros a ++ b ++ zeros z) = poly b * X ^ z := by
  rw [poly_append, poly_append, poly_zeros, poly_zeros, zeros_length, zero_mul, zero_add, add_zero]

/-- Over GF(2) the coefficient of an XOR is the sum of the coefficients. -/
theorem ite_xor_eq_add (x y : Bool) (q : (ZMod 2)[X]) :
    (if xor x y then q else 0) = (if x then q else 0) + (if y then q else 0) := by
  cases x <;> cases y <;> simp [CharTwo.add_self_eq_zero]

/-- XOR of sequences of one length is addition over GF(2) (R5). -/
theorem poly_xorSeq {a b : BitSeq} (hl : a.length = b.length) : poly (xorSeq a b) = poly a + poly b := by
  induction a generalizing b with
  | nil =>
    obtain rfl : b = [] := List.length_eq_zero_iff.1 hl.symm
    exact (add_zero 0).symm
  | cons x a ih =>
    obtain ⟨y, b, rfl⟩ := List.exists_cons_of_length_eq_add_one hl.symm
    have hab : a.length = b.length := Nat.succ.inj hl
    have hcons : xorSeq (x :: a) (y :: b) = xor x y :: xorSeq a b := rfl
    rw [hcons, poly, poly, poly, xorSeq_length, hab, Nat.min_self, ite_xor_eq_add, ih hab, add_add_add_comm]

/-- A set leading bit makes the polynomial monic (R12). -/
theorem ValidGenerator.monic {g : BitSeq} (hg : ValidGenerator g) : (poly g).Monic := by
  obtain ⟨u, rfl⟩ := List.head?_eq_some_iff.1 hg
  rw [poly_cons_true]
  exact monic_X_pow_add (degree_poly_lt u)

/-- Only a sequence of zeros stands for the zero polynomial. -/
theorem poly_eq_zero_iff (b : BitSeq) : poly b = 0 ↔ b = zeros b.length := by
  refine ⟨fun h => ?_, fun h => h ▸ poly_zeros _⟩
  induction b with
  | nil => rfl
  | cons x u ih =>
    cases x with
    | false => rw [poly_cons_false] at h; exact congrArg (false :: ·) (ih h)
    | true => exact absurd h (ValidGenerator.monic (g := true :: u) rfl).ne_zero

theorem allZero_iff_poly (b : BitSeq) : allZero b = true ↔ poly b = 0 := by
  rw [allZero_iff, poly_eq_zero_iff]

theorem allZero_xorSeq_iff {a b : BitSeq} (hl : a.length = b.length) : allZero (xorSeq a b) = true ↔ a = b := by
  refine ⟨fun h => bits_ext hl fun i => ?_, fun h => ?_⟩
  · have hbit := xorSeq_getD hl i
    rw [(allZero_iff _).1 h, zeros_getD] at hbit
    simpa using hbit.symm
  · rw [h, xorSeq_self, allZero_iff, zeros_length]

/-- Sequences of one length are told apart by their polynomials. -/
theorem eq_of_poly_eq {a b : BitSeq} (hl : a.length = b.length) (h : poly a = poly b) : a = b := by
  rw [← allZero_xorSeq_iff hl, allZero_iff_poly, poly_xorSeq hl, h, CharTwo.add_self_eq_zero]

/-! ## The scan subtracts multiples of the generator -/

/-- The generator placed at window `i` of a buffer of `n` bits has `n` bits. -/
theorem length_window {g : BitSeq} {i n : Nat} (h : i + g.length ≤ n) :
    (zeros i ++ g ++ zeros (n - (i + g.length))).length = n := by
  simp; omega

/-- A position whose tested bit is 1 adds the generator, shifted to its window, to the whole buffer (R82, R86). -/
theorem reduceAt_eq_xorSeq {g b : BitSeq} {i : Nat} (hb : b[i]? = some true) (h : i + g.length ≤ b.length) :
    reduceAt g b i = xorSeq b (zeros i ++ g ++ zeros (b.length - (i + g.length))) := by
  have hl := (length_window h).symm
  refine bits_ext (by rw [reduceAt_length, xorSeq_length, ← hl, Nat.min_self]) fun a => ?_
  rw [reduceAt_getD h, xorSeq_getD hl, hb, List.append_assoc]
  by_cases hia : i ≤ a
  · rw [List.getElem?_append_right (by simpa using hia), zeros_length]
    by_cases hag : a - i < g.length
    · rw [List.getElem?_append_left hag]; simp [hia]
    · rw [List.getElem?_append_right (by omega), zeros_getD, List.getElem?_eq_none (l := g) (by omega)]; simp
  · rw [List.getElem?_append_left (by simpa using hia), zeros_getD]; simp [hia]

theorem dvd_poly_reduceAt_sub {g b : BitSeq} {i : Nat} (h : i + g.length ≤ b.length) :
    poly g ∣ poly (reduceAt g b i) - poly b := by
  by_cases hb : b[i]? = some true
  · rw [reduceAt_eq_xorSeq hb h, poly_xorSeq (length_window h).symm, poly_zeros_append_zeros, add_sub_cancel_left]
    exact dvd_mul_right _ _
  · rw [reduceAt, if_neg hb, sub_self]
    exact dvd_zero _

/-- The scan keeps the buffer's polynomial modulo the generator's (R86). -/
theorem dvd_poly_scanFrom_sub {g b : BitSeq} {k i : Nat} (h : i + k + (g.length - 1) ≤ b.length) :
    poly g ∣ poly (scanFrom g k i b) - poly b := by
  induction k generalizing i b with
  | zero => rw [scanFrom, sub_self]; exact dvd_zero _
  | succ k ih =>
    have hrest := ih (i := i + 1) (b := reduceAt g b i) (by rw [reduceAt_length]; omega)
    rw [← sub_add_sub_cancel _ (poly (reduceAt g b i)), scanFrom]
    exact dvd_add hrest (dvd_poly_reduceAt_sub (by omega))

/-- Every position the scan has passed is 0 (R84). -/
theorem scanFrom_getElem?_of_lt {g b : BitSeq} {k i : Nat} (hg : ValidGenerator g) (h : i + k + (g.length - 1) ≤ b.length)
    (hz : ∀ j, j < i → b[j]? = some false) : ∀ j, j < i + k → (scanFrom g k i b)[j]? = some false := by
  have hpos : 0 < g.length := List.length_pos_iff.2 fun hn => by simp [ValidGenerator, hn] at hg
  induction k generalizing i b with
  | zero => exact hz
  | succ k ih =>
    have hwin : i + g.length ≤ b.length := by omega
    intro j hj
    refine ih (i := i + 1) (by rw [reduceAt_length]; omega) (fun a ha => ?_) j (by omega)
    rcases Nat.lt_succ_iff_lt_or_eq.1 ha with hlt | rfl
    · rw [reduceAt_getElem? hwin, if_neg (by omega), hz a hlt]
    · exact reduceAt_getElem?_self hg hwin

/-- What the whole scan leaves: zeros, then the remainder (R80, R84). -/
theorem scanFrom_eq_zeros_append_divide {b g : BitSeq} (hg : ValidGenerator g) (h : g.length - 1 ≤ b.length) :
    scanFrom g (b.length - (g.length - 1)) 0 b = zeros (b.length - (g.length - 1)) ++ divide b g := by
  have hzero := scanFrom_getElem?_of_lt (k := b.length - (g.length - 1)) (i := 0) hg (b := b) (by omega)
    fun _ hj => absurd hj (Nat.not_lt_zero _)
  have htake : (scanFrom g (b.length - (g.length - 1)) 0 b).take (b.length - (g.length - 1)) =
      zeros (b.length - (g.length - 1)) := by
    refine bits_ext (by simp) fun j => ?_
    rw [zeros_getD, List.getElem?_take]
    split
    · rw [hzero j (by omega)]; rfl
    · rfl
  rw [← htake, divide, List.take_append_drop]

/-- The remainder differs from the divided sequence by a multiple of the generator (R86). -/
theorem dvd_poly_sub_divide {b g : BitSeq} (hg : ValidGenerator g) (h : g.length - 1 ≤ b.length) :
    poly g ∣ poly b - poly (divide b g) := by
  have hscan := dvd_poly_scanFrom_sub (g := g) (b := b) (k := b.length - (g.length - 1)) (i := 0) (by omega)
  rw [scanFrom_eq_zeros_append_divide hg h, poly_append, poly_zeros, zero_mul, zero_add] at hscan
  exact (dvd_sub_comm).1 hscan

/-- `divide` is the remainder of polynomial division: it has fewer terms than the generator (R86). -/
theorem poly_divide {b g : BitSeq} (hg : ValidGenerator g) (h : g.length - 1 ≤ b.length) :
    poly (divide b g) = poly b %ₘ poly g := by
  have hlt : (poly (divide b g)).degree < (poly g).degree := by
    have hlen : ((g.length - 1 : ℕ) : WithBot ℕ) = (poly g).degree := by
      rw [degree_eq_natDegree hg.monic.ne_zero, hg.natDegree_poly]
    rw [← hlen, ← divide_length h]
    exact degree_poly_lt _
  rw [modByMonic_eq_of_dvd_sub hg.monic (dvd_poly_sub_divide hg h), (modByMonic_eq_self_iff hg.monic).2 hlt]

/-! ## COMPUTE and VERIFY -/

theorem poly_computeOf (p : BitSeq) {g : BitSeq} (hg : ValidGenerator g) :
    poly (computeOf p g) = (poly p * X ^ (g.length - 1)) %ₘ poly g := by
  rw [computeOf, poly_divide hg (by simp), poly_append, poly_zeros, add_zero, zeros_length]

theorem verifyOf_iff_dvd {f g : BitSeq} (hg : ValidGenerator g) (h : g.length - 1 ≤ f.length) :
    verifyOf f g = true ↔ poly g ∣ poly f := by
  rw [verifyOf, allZero_iff_poly, poly_divide hg h, modByMonic_eq_zero_iff_dvd hg.monic]

/-- A valid frame with an error pattern XORed in verifies iff the pattern is a multiple of the generator (R106, C2). -/
theorem verifyOf_xorSeq_iff_dvd {f e g : BitSeq} (hg : ValidGenerator g) (h : g.length - 1 ≤ f.length)
    (he : e.length = f.length) (hf : verifyOf f g = true) : verifyOf (xorSeq f e) g = true ↔ poly g ∣ poly e := by
  have hx : g.length - 1 ≤ (xorSeq f e).length := by simp [he, h]
  rw [verifyOf_iff_dvd hg hx, poly_xorSeq he.symm, dvd_add_right ((verifyOf_iff_dvd hg h).1 hf)]

/-! ## Error patterns -/

/-- A single flipped bit with `z` bits behind it is `x^z` (R107). -/
theorem poly_singleBit (a z : Nat) : poly (zeros a ++ [true] ++ zeros z) = X ^ z := by
  rw [poly_zeros_append_zeros, poly_cons_true]
  simp [poly]

theorem poly_true_zeros (n : Nat) : poly (true :: zeros n) = X ^ n := by
  rw [poly_cons_true, poly_zeros, zeros_length, add_zero]

/-- The only generators that divide a power of `x` are the monomials (R107, C4). -/
theorem eq_true_zeros_of_dvd_X_pow {g : BitSeq} {z : Nat} (hg : ValidGenerator g) (h : poly g ∣ X ^ z) :
    g = true :: zeros (g.length - 1) := by
  obtain ⟨u, rfl⟩ := List.head?_eq_some_iff.1 hg
  obtain ⟨i, -, hassoc⟩ := (dvd_prime_pow prime_X z).1 h
  have hpow : poly (true :: u) = X ^ i := eq_of_monic_of_associated hg.monic (monic_X_pow i) hassoc
  have hdeg : u.length = i := by
    have hnat := hg.natDegree_poly
    rw [hpow, natDegree_X_pow, List.length_cons, Nat.add_sub_cancel] at hnat
    exact hnat.symm
  exact eq_of_poly_eq (by simp) (by rw [hpow, poly_true_zeros, ← hdeg]; simp)

/-- A generator with a constant term has no factor `x` (R108, C5). -/
theorem isCoprime_X_pow {g : BitSeq} (hl : g.getLast? = some true) (z : Nat) : IsCoprime (poly g) (X ^ z) := by
  obtain ⟨u, rfl⟩ := List.getLast?_eq_some_iff.1 hl
  have hconst : poly (u ++ [true]) = poly u * X + 1 := by simp [poly_append, poly]
  have hX : IsCoprime (poly u * X + 1) X := ⟨1, -poly u, by ring⟩
  rw [hconst]
  exact hX.pow_right

/-- A generator with a constant term divides no burst of at most R bits (R108). -/
theorem not_dvd_burst {g b : BitSeq} (hg : ValidGenerator g) (hl : g.getLast? = some true) (hb : b.head? = some true)
    (hlen : b.length ≤ g.length - 1) (a z : Nat) : ¬poly g ∣ poly (zeros a ++ b ++ zeros z) := by
  intro h
  rw [poly_zeros_append_zeros] at h
  have hdvd : poly g ∣ poly b := (isCoprime_X_pow hl z).dvd_of_dvd_mul_right h
  have hlt : (poly b).degree < (poly g).degree := by
    rw [degree_eq_natDegree hg.monic.ne_zero, hg.natDegree_poly]
    exact (degree_poly_lt b).trans_le (by exact_mod_cast hlen)
  exact (ValidGenerator.monic hb).ne_zero (eq_zero_of_dvd_of_degree_lt hdvd hlt)

end Sys2Proof.Machine

open Sys2Proof Sys2Proof.Machine

/-- Settles O20: every position keeps the polynomial modulo the generator, and the scan clears all but the last r bits. -/
theorem divideIsPolynomialRemainder : Obligations.DivideIsPolynomialRemainder :=
  fun _ _ hg h => ⟨divide_length h, poly_divide hg h⟩

/-- Settles O26: the r zeros COMPUTE puts behind the payload multiply it by `x^r`. -/
theorem computeIsShiftedRemainder : Obligations.ComputeIsShiftedRemainder :=
  fun p _ hg => poly_computeOf p hg

/-- Settles O31: the remainder is all zero iff its polynomial is 0. -/
theorem verifyIsDivisibility : Obligations.VerifyIsDivisibility :=
  fun _ _ hg h => verifyOf_iff_dvd hg h

/-- Settles O32: the remainder of a frame is its payload's remainder XOR its last r bits. -/
theorem verifyComparesReceivedChecksum : Obligations.VerifyComparesReceivedChecksum := by
  intro f g _ hlt
  have hsum : (f.drop (f.length - (g.length - 1))).length = g.length - 1 := by simp; omega
  have hdiv := divide_append (f.take (f.length - (g.length - 1))) hsum
  rw [List.take_append_drop] at hdiv
  rw [verifyOf, hdiv, allZero_xorSeq_iff ((computeOf_length _ g).trans hsum.symm)]

/-- Settles O34: a valid frame is a multiple of the generator, so the sum is one iff the error pattern is. -/
theorem undetectedIffErrorDivisible : Obligations.UndetectedIffErrorDivisible :=
  fun _ _ _ hg h he hf => verifyOf_xorSeq_iff_dvd hg h he hf

/-- Settles O35: a flip is a power of `x`, which among the generators only monomials divide, each exactly the powers from its own
degree on. -/
theorem singleBitErrors : Obligations.SingleBitErrors := by
  refine ⟨fun f g a z hg h hl hf hcount => ?_, fun f r a z h hl ha hf => ?_⟩
  · rw [← Bool.not_eq_true, verifyOf_xorSeq_iff_dvd hg h (by simp [hl]; omega) hf, poly_singleBit]
    intro hdvd
    rw [eq_true_zeros_of_dvd_X_pow hg hdvd] at hcount
    simp [zeros, List.count_replicate] at hcount
  · rw [verifyOf_xorSeq_iff_dvd (g := true :: zeros r) rfl (by simpa using h) (by simp [hl]; omega) hf,
      poly_singleBit, poly_true_zeros]
    exact pow_dvd_pow _ (by omega)

/-- Settles O36: a burst is a nonzero polynomial of lower degree than the generator's, times a power of `x`. -/
theorem shortBurstsAreDetected : Obligations.ShortBurstsAreDetected := by
  rintro f e g k hg hlast h - hk ⟨a, z, b, rfl, he, rfl, hb, -⟩ hf
  rw [← Bool.not_eq_true, verifyOf_xorSeq_iff_dvd hg h he hf]
  exact not_dvd_burst hg hlast hb hk a z

/-- Settles O37: the pattern is the generator times a power of `x`. -/
theorem shiftedGeneratorIsUndetected : Obligations.ShiftedGeneratorIsUndetected := by
  intro f g a z hg hl hf
  have hlen : (zeros a ++ g ++ zeros z).length = f.length := by simp [hl]; omega
  rw [verifyOf_xorSeq_iff_dvd hg (by omega) hlen hf, poly_zeros_append_zeros]
  exact dvd_mul_right _ _

end

section
/-! PROOFS. Accepted commands: what each makes of its operand within and over capacity (60_exceptions), the channels it leaves,
and the steps in which the engine waits, sends a waiting response or serves a reset (70_reset_and_hazards,
93_implementation_defined). -/

namespace Sys2Proof.Machine

variable {s t : State} {i : Instr}

/-! ## A command as what it does to its operand -/

/-- What a command does once its operand is there. -/
def Instr.act : Instr → BitSeq → State → Result
  | .loadgen _ => loadgenAct
  | .degree => fun _ => degreeAct
  | .compute _ => computeAct
  | .verify _ => verifyAct

theorem exec_eq_accept_act (i : Instr) (s : State) : exec i s = accept i.operandLen (Instr.act i) s := by
  cases i <;> rfl

/-- A presented command runs on its operand. -/
theorem exec_of_presents {data rest : BitSeq} (hp : s.Presents data rest) (hl : data.length = i.operandLen) :
    exec i s = Instr.act i data (s.consume rest) := by
  rw [exec_eq_accept_act, ← hl, accept_of_presented hp.idle hp.quiet hp.din]

/-- A command that is not presented is held or waits; a presented one runs on its operand (R146, U15). -/
theorem exec_held_or_presented (i : Instr) (s : State) :
    exec i s = .next s ∨ ∃ data rest, s.Presents data rest ∧ data.length = i.operandLen := by
  rcases accept_cases i.operandLen (Instr.act i) s with ⟨he, -⟩ | ⟨d, rest, hp, hq, hd, hl, -⟩
  · exact .inl ((exec_eq_accept_act i s).trans he)
  · exact .inr ⟨d, rest, ⟨hp, hq, hd⟩, hl⟩

/-! ## Capacity -/

theorem State.fits_consume (s : State) (rest : BitSeq) (i : Instr) : (s.consume rest).fits i = s.fits i := by
  cases i <;> rfl

/-- Over capacity a command is refused before any of its error checks (R134, log 3). -/
theorem act_of_not_fits {d : BitSeq} (hl : d.length = i.operandLen) (hf : s.fits i = false) :
    Instr.act i d s = .refused .overCapacity := by
  cases i with
  | loadgen n =>
    obtain rfl : d.length = n := hl
    exact (loadgenAct_eq d s).trans (if_pos (Nat.not_le.1 (of_decide_eq_false hf)))
  | degree => cases hf
  | compute n =>
    obtain rfl : d.length = n := hl
    exact (computeAct_eq d s).trans (if_pos (Nat.not_le.1 (of_decide_eq_false hf)))
  | verify n =>
    obtain rfl : d.length = n := hl
    exact (verifyAct_eq d s).trans (if_pos (Nat.not_le.1 (of_decide_eq_false hf)))

/-- Within capacity a command answers a next state. -/
theorem exists_act_of_fits {d : BitSeq} (hl : d.length = i.operandLen) (hf : s.fits i = true) :
    ∃ t, Instr.act i d s = .next t := by
  cases i with
  | degree =>
    simp only [Instr.act, degreeAct_eq]
    split_ifs <;> exact ⟨_, rfl⟩
  | loadgen n | compute n | verify n =>
    obtain rfl : d.length = n := hl
    have hfit := Nat.not_lt.2 (of_decide_eq_true hf)
    simp only [Instr.act, loadgenAct_eq, computeAct_eq, verifyAct_eq, if_neg hfit]
    split_ifs <;> exact ⟨_, rfl⟩

theorem exists_exec_of_fits {data rest : BitSeq} (hp : s.Presents data rest) (hl : data.length = i.operandLen)
    (hf : s.fits i = true) : ∃ t, exec i s = .next t := by
  rw [exec_of_presents hp hl]
  exact exists_act_of_fits hl ((s.fits_consume rest i).trans hf)

theorem exec_of_not_fits {data rest : BitSeq} (hp : s.Presents data rest) (hl : data.length = i.operandLen)
    (hf : s.fits i = false) : exec i s = .refused .overCapacity := by
  rw [exec_of_presents hp hl]
  exact act_of_not_fits hl ((s.fits_consume rest i).trans hf)

/-- The refused commands are the presented ones over capacity (R134, log 17). -/
theorem exec_refused_iff {q : Refusal} : exec i s = .refused q ↔
    q = .overCapacity ∧ (∃ data rest, s.Presents data rest ∧ data.length = i.operandLen) ∧ s.fits i = false := by
  constructor
  · intro h
    rcases exec_held_or_presented i s with he | ⟨d, rest, hp, hl⟩
    · rw [he] at h; cases h
    · cases hf : s.fits i with
      | true => obtain ⟨t, ht⟩ := exists_exec_of_fits hp hl hf; rw [ht] at h; cases h
      | false => rw [exec_of_not_fits hp hl hf] at h; cases h; exact ⟨rfl, ⟨d, rest, hp, hl⟩, rfl⟩
  · rintro ⟨rfl, ⟨d, rest, hp, hl⟩, hf⟩
    exact exec_of_not_fits hp hl hf

/-- No command faults in its ACCEPT step. -/
theorem exec_ne_fault (i : Instr) (s : State) (f : Fault) : exec i s ≠ .fault f := by
  rcases exec_held_or_presented i s with he | ⟨d, rest, hp, hl⟩
  · simp [he]
  · cases hf : s.fits i with
    | true => obtain ⟨t, ht⟩ := exists_exec_of_fits hp hl hf; simp [ht]
    | false => simp [exec_of_not_fits hp hl hf]

/-- With the largest legal parameters every command a header can encode is within capacity (R4, R51). -/
theorem State.Inv.fits_of_largest (hI : s.Inv) (hc : s.cfg = Config.largest) (hi : i.wf = true) : s.fits i = true := by
  have hr := hI.r_le
  rw [hc] at hr
  have hlen := Instr.operandLen_lt hi
  cases i with
  | degree => rfl
  | loadgen n | compute n | verify n =>
    simp only [Instr.operandLen, Config.largest] at hlen hr
    simp only [State.fits, hc, Config.largest, decide_eq_true_eq]
    omega

/-! ## What an accepted command leaves -/

/-- What a command does to its operand never touches CMD or DIN. -/
theorem act_sameCommands {d : BitSeq} (h : Instr.act i d s = .next t) : s.SameCommands t := by
  cases i with
  | loadgen n | degree | compute n | verify n =>
    simp only [Instr.act, loadgenAct_eq, degreeAct_eq, computeAct_eq, verifyAct_eq] at h
    split_ifs at h <;> cases h <;> exact ⟨rfl, rfl⟩

/-- A presented command takes its header off CMD and its operand off DIN (R56). -/
theorem consumed_of_presents {data rest : BitSeq} (hp : s.Presents data rest) (hl : data.length = i.operandLen)
    (h : exec i s = .next t) : s.Consumed t rest := by
  rw [exec_of_presents hp hl] at h
  obtain ⟨hcmd, hdin⟩ := act_sameCommands h
  exact ⟨hcmd, hdin⟩

theorem loadgenAct_err {d : BitSeq} (h : loadgenAct d s = .next t) : t.err = .ok ∨ t.err = .invalidGenerator := by
  rw [loadgenAct_eq] at h
  split_ifs at h <;> cases h
  · exact .inl rfl
  · exact .inr rfl

theorem degreeAct_err (h : degreeAct s = .next t) : t.err = .ok ∨ t.err = .invalidGenerator := by
  rw [degreeAct_eq] at h
  split_ifs at h <;> cases h
  · exact .inl rfl
  · exact .inr rfl

/-- COMPUTE stays in IDLE only when it fails (R90). -/
theorem computeAct_err {d : BitSeq} (h : computeAct d s = .next t) (hi : t.ph = .idle) :
    t.err = .invalidGenerator ∨ t.err = .emptyPayload := by
  rw [computeAct_eq] at h
  split_ifs at h <;> cases h
  · exact .inl rfl
  · exact .inr rfl
  · cases hi

/-- VERIFY stays in IDLE only when it fails (R100). -/
theorem verifyAct_err {d : BitSeq} (h : verifyAct d s = .next t) (hi : t.ph = .idle) :
    t.err = .invalidGenerator ∨ t.err = .frameTooShort := by
  rw [verifyAct_eq] at h
  split_ifs at h <;> cases h
  · exact .inl rfl
  · exact .inr rfl
  · cases hi

/-! ## Waiting, and a waiting response -/

/-- A command whose operand is not all there waits (U15, log 10). -/
theorem exec_of_din_short (h : s.din.length < i.operandLen) : exec i s = .next s := by
  rcases exec_held_or_presented i s with he | ⟨d, rest, hp, hl⟩
  · exact he
  · rw [hp.din, List.length_append] at h; omega

/-- A waiting response comes before the scan and the commands (R146). -/
theorem step_of_pend {m : Response} (hr : s.rst = false) (hm : s.pend = some m) : step s = .next (s.transfer m) := by
  simp [step, hr, hm]

theorem step_of_no_command (hr : s.rst = false) (hq : s.pend = none) (hi : s.ph = .idle) (hc : s.cmd = []) :
    step s = .next s := by
  simp [step, hr, hq, hi, State.fetch, hc]

end Sys2Proof.Machine

open Sys2Proof Sys2Proof.Machine

/-- Settles O43: refusal is that of a presented command over capacity, case by case over the command. -/
theorem overCapacityIsRefused : Obligations.OverCapacityIsRefused := by
  refine ⟨fun i s q => exec_refused_iff.trans (and_congr_right' (and_congr_right' ?_)), exec_ne_fault⟩
  cases i with
  | degree => simp [State.fits]
  | loadgen n | compute n | verify n => simp only [State.fits, decide_eq_false_iff_not, Nat.not_le]

/-- Settles O44: the largest parameters bound every operand a header can announce. -/
theorem largestCapacityNeverRefuses : Obligations.LargestCapacityNeverRefuses := by
  intro i s q hI hc hi h
  obtain ⟨-, -, hf⟩ := exec_refused_iff.1 h
  simp [hI.fits_of_largest hc hi] at hf

/-- Settles O41: in a scan only COMPLETE writes ST.ERR, and each command's own checks name its errors. -/
theorem eachCommandRaisesOnlyItsErrors : Obligations.EachCommandRaisesOnlyItsErrors := by
  refine ⟨fun s t hr hq hs h => ?_, fun i s t data rest hp hl h hi => ?_⟩
  · rw [step_of_scan hr hq hs] at h
    rcases scanStep_cases h with ⟨-, b, -, rfl⟩ | ⟨-, rem, -, rfl⟩
    · exact ⟨fun _ => rfl, fun hidle => by simp [hs] at hidle⟩
    · exact ⟨by simp, by simp⟩
  · rw [exec_of_presents hp hl] at h
    cases i with
    | loadgen n => exact loadgenAct_err h
    | degree => exact degreeAct_err h
    | compute n => exact computeAct_err h hi
    | verify n => exact verifyAct_err h hi

/-- Settles O42: a failure leaves `failedWith`, in IDLE and, the host being ready, with no response waiting. -/
theorem readyAfterError : Obligations.ReadyAfterError := by
  intro i s t data rest w ws hp hl hr hy h hi he hc
  have ht := exec_eq_failedWith_of_err hp hl h hi he
  generalize t.err = e at ht
  subst ht
  obtain ⟨-, -, hquiet⟩ := (s.answered_failedWith rest e).sent hy
  exact ⟨State.canAccept_iff.2 ⟨hi, hquiet⟩, step_of_cmd hr hi hquiet hc⟩

/-- Settles O52: the header and the operand are consumed before the command acts, which leaves the channels alone. -/
theorem wholeFrameIsConsumed : Obligations.WholeFrameIsConsumed :=
  fun _ _ _ _ _ hp hl h => consumed_of_presents hp hl h

/-- Settles O48: the step that serves the request leaves `afterReset`, or refuses in a partial delivery; the phase plays no
part. -/
theorem resetDuringScanAbandonsCommand : Obligations.ResetDuringScanAbandonsCommand := by
  intro s hr
  refine ⟨fun hd => ?_, fun hd => ?_, fun _ hd => ?_⟩
  · exact ⟨s.afterReset, step_of_rst hr hd, rfl, ⟨rfl, rfl⟩, rfl, rfl, rfl, rfl, rfl, rfl⟩
  · rw [step, if_pos hr, resetStep_eq, if_pos hd]
  · exact ⟨s.afterReset, step_of_rst hr hd, rfl, rfl, rfl, rfl, rfl, rfl, rfl⟩

/-- Settles O50: the three waits. -/
theorem engineWaitsForTheHost : Obligations.EngineWaitsForTheHost := by
  refine ⟨fun s hr hq hi hc => step_of_no_command hr hq hi hc, fun i s h => exec_of_din_short h, fun s m hr hm hy => ?_⟩
  rw [step_of_pend hr hm, State.transfer, if_neg (by simp [hy])]

/-- Settles O51: the transfer clears the waiting response and emits it. -/
theorem waitingResponseGoesOut : Obligations.WaitingResponseGoesOut := by
  intro s m hr hm hy
  have hstep := step_of_pend hr hm
  rw [State.transfer, if_pos hy] at hstep
  obtain ⟨hrsp, hdout, hquiet⟩ := (({ s with pend := none } : State).answered_emit m).sent hy
  exact ⟨_, hstep, hrsp, hdout, hquiet, rfl, rfl, rfl, ⟨rfl, rfl, rfl⟩, ⟨rfl, rfl, rfl, rfl, rfl⟩, ⟨rfl, rfl, rfl⟩,
    ⟨rfl, rfl⟩⟩

/-- Settles O55: the decoder is total and its commands are well formed. -/
theorem stepRunsTheDecodedCommand : Obligations.StepRunsTheDecodedCommand :=
  fun _ w _ hr hq hi hc => ⟨decode_wf w, step_of_cmd hr hi hq hc⟩

/-- Settles O56: the placed header stands first on CMD before an idle engine, its operand first on DIN. -/
theorem placedHeaderRuns : Obligations.PlacedHeaderRuns := by
  intro s nbits w i hi
  obtain rfl : decode (BitVec.ofNat 32 (w % 2 ^ nbits)) = i := Option.some.inj hi
  exact ⟨step_of_cmd rfl rfl rfl rfl, rfl, rfl, rfl⟩

end

section
/-! PROOFS. What every step keeps: the invariant of reachable states (10_state, 41_divider section 3), the transient buffer (R14),
the response table (R58) and the absence of faults. -/

namespace Sys2Proof.Machine

variable {s t : State} {i : Instr}

/-! ## The invariant, operation by operation -/

theorem State.inv_resetWith {c : Config} (hc : c.wf = true) : (State.resetWith c).Inv where
  cfg_wf := hc
  mem_wf := memWf_resetWith c
  r_le := Nat.zero_le _
  gen_written := nofun
  gen_leading := nofun
  r_zero := fun _ => rfl
  pos_le := le_refl 0
  npos_le := le_refl 0
  len_le := Nat.zero_le _
  scan_gv := nofun
  scan_npos := nofun
  scan_written := nofun
  scan_zero := nofun
  scan_quiet := nofun
  pend_wf := nofun

theorem State.Inv.afterReset (hI : s.Inv) : s.afterReset.Inv :=
  { State.inv_resetWith hI.cfg_wf with pend_wf := nofun }

theorem Response.wf_of_error (e : Status) : Response.wf { status := e, val := 0, data := [] } = true := by
  simp [Response.wf]

theorem State.Inv.raised (hI : s.Inv) (hi : s.ph = .idle) (e : Status) : (s.raised e).Inv :=
  (hI.setErr e).emit hi (Response.wf_of_error e)

theorem State.Inv.r_lt (hI : s.Inv) : s.r < 2 ^ 30 := by
  have hmax := Config.rmax_lt hI.cfg_wf
  have hr := hI.r_le
  omega

theorem boolVal_lt (b : Bool) : boolVal b < 2 ^ 30 := by
  cases b <;> decide

theorem State.Inv.completeVerify (hI : s.Inv) (rem : BitSeq) : (completeVerify rem s).Inv :=
  have hreleased : ({ s.release with vok := allZero rem } : State).Inv := { hI.release with }
  hreleased.finish rfl (boolVal_lt _) (.inl rfl)

theorem State.Inv.completeWith (hI : s.Inv) {rem : BitSeq} (hl : rem.length = s.r) : (s.completeWith rem).Inv := by
  cases ho : s.opl with
  | compute => rw [State.completeWith_of_compute ho]; exact hI.completeCompute hl
  | verify => rw [State.completeWith_of_verify ho]; exact hI.completeVerify rem

/-- A response that goes out no longer waits (R146). -/
theorem State.Inv.transferred (hI : s.Inv) (hy : s.rspReady = true) (m : Response) :
    (({ s with pend := none } : State).emit m).Inv :=
  { hI with
    scan_quiet := fun _ => by simp [hy]
    pend_wf := fun _ h => by simp [hy] at h }

/-! ## The invariant through commands and steps -/

theorem AcceptOutcome.inv (hI : s.Inv) (h : AcceptOutcome i s t) : t.Inv := by
  cases h with
  | held h why => subst h; exact hI
  | failed d rest e hd hl hi hq he h => subst h; exact (hI.consume rest).raised hi e
  | loaded d rest hi' hd hi hq hv hc h => subst h; exact hI.loadgenDone hi rest hv hc
  | degree hi' hi hq hg h => subst h; exact (hI.consume _).finish hi hI.r_lt (.inl rfl)
  | compute d rest hi' hd hi hq hg hne hc h =>
    subst h
    have hlen : d.length + s.r = (d ++ zeros s.r).length := by simp
    exact (hI.consume rest).loadScan hg hq .compute hlen (hlen ▸ hc)
  | verify d rest hi' hd hi hq hg hr hc h =>
    subst h; exact (hI.consume rest).loadScan hg hq .verify (Nat.sub_add_cancel hr) hc

theorem step_keeps_inv (hI : s.Inv) (h : step s = .next t) : t.Inv := by
  cases step_cases h with
  | reset hr hd h => subst h; exact hI.afterReset
  | transferred m hr hp hy h => subst h; exact hI.transferred hy m
  | divstep b hr hp hs hn hb h' =>
    obtain rfl : s.divided = t := by simpa [step_of_pos_lt_npos hI hr hs hn] using h
    exact hI.divided hs hn
  | complete rem hr hp hs hn hb h => subst h; exact hI.completeWith (readRemainder_length hb)
  | accepted w ws hr hp hs hc he ho => exact ho.inv hI
  | waiting m hr hp hy h | noCommand hr hp hs hc h => subst h; exact hI

/-- From the invariant a step without reset is a transfer, a wait, a step of the scan whose accesses are in bounds, or exec, and
none of them faults (R36, R81). -/
theorem step_ne_fault (hI : s.Inv) (f : Fault) : step s ≠ .fault f := by
  cases hr : s.rst with
  | true => rw [step, if_pos hr, resetStep_eq]; split <;> simp
  | false =>
    cases hq : s.pend with
    | some m => simp [step_of_pend hr hq]
    | none =>
      cases hs : s.ph with
      | scan =>
        rcases hI.pos_le.lt_or_eq with hn | hn
        · simp [step_of_pos_lt_npos hI hr hs hn]
        · simp [step_of_pos_eq_npos hI hr hs hn]
      | idle =>
        cases hc : s.cmd with
        | nil => simp [step_of_no_command hr hq hs hc]
        | cons w ws => rw [step_of_cmd hr hs hq hc]; exact exec_ne_fault _ s f

/-! ## The response table -/

/-- Nothing was sent, or one response of R58. -/
def State.SentTabled (s t : State) : Prop :=
  (t.rsp = s.rsp ∧ t.dout = s.dout) ∨
    ∃ m : Response, m.wf = true ∧ t.rsp = s.rsp ++ [m.header] ∧ t.dout = s.dout ++ m.data

/-- An answer is sent to a ready host and else waits (R50). -/
theorem State.Answered.sentTabled {m : Response} (h : s.Answered t m) (hm : m.wf = true) : s.SentTabled t := by
  cases hy : s.rspReady with
  | true =>
    obtain ⟨hrsp, hdout, -⟩ := h.sent hy
    exact .inr ⟨m, hm, hrsp, hdout⟩
  | false =>
    obtain ⟨hrsp, hdout, -⟩ := h.waits hy
    exact .inl ⟨hrsp, hdout⟩

theorem State.Inv.sentTabled_completeWith (hI : s.Inv) {rem : BitSeq} (hl : rem.length = s.r) :
    s.SentTabled (s.completeWith rem) := by
  cases ho : s.opl with
  | compute =>
    rw [State.completeWith_of_compute ho]
    exact (answered_completeCompute s rem).sentTabled (Response.wf_of_ok hI.r_lt (.inr hl))
  | verify =>
    rw [State.completeWith_of_verify ho]
    exact (answered_completeVerify s rem).sentTabled (Response.wf_of_ok (boolVal_lt _) (.inl rfl))

theorem AcceptOutcome.sentTabled (hI : s.Inv) (h : AcceptOutcome i s t) : s.SentTabled t := by
  cases h with
  | failed d rest e hd hl hi hq he h =>
    subst h; exact (s.answered_failedWith rest e).sentTabled (Response.wf_of_error e)
  | loaded d rest hi' hd hi hq hv hc h =>
    subst h
    have hmax := Config.rmax_lt hI.cfg_wf
    exact (s.answered_loadgenDone d rest).sentTabled (Response.wf_of_ok (by omega) (.inl rfl))
  | degree hi' hi hq hg h =>
    subst h
    have hans := ((s.consume s.din).answered_finish s.r []).of_channels (s := s) rfl rfl rfl
    exact hans.sentTabled (Response.wf_of_ok hI.r_lt (.inl rfl))
  | held h why | compute d rest hi' hd hi hq hg hne hc h | verify d rest hi' hd hi hq hg hr hc h =>
    subst h; exact .inl ⟨rfl, rfl⟩

theorem step_sentTabled (hI : s.Inv) (h : step s = .next t) : s.SentTabled t := by
  cases step_cases h with
  | transferred m hr hp hy h =>
    subst h
    have hans := (({ s with pend := none } : State).answered_emit m).of_channels (s := s) rfl rfl rfl
    exact hans.sentTabled (hI.pend_wf m hp)
  | complete rem hr hp hs hn hb h => subst h; exact hI.sentTabled_completeWith (readRemainder_length hb)
  | accepted w ws hr hp hs hc he ho => exact ho.sentTabled hI
  | reset hr hd h | waiting m hr hp hy h | divstep b hr hp hs hn hb h | noCommand hr hp hs hc h =>
    subst h; exact .inl ⟨rfl, rfl⟩

/-! ## The transient buffer -/

/-- Loading an empty buffer leaves exactly the loaded cells (R14, R37). -/
theorem State.bufTransient_loadScan (hb : s.buf = []) (op : ScanOp) (b : BitSeq) (n : Nat) :
    (s.loadScan op b n).BufTransient where
  idle_empty := nofun
  scan_exact := fun _ => by simp [hb, storeAt]

theorem State.BufTransient.of_sameScan (hB : s.BufTransient) (hph : t.ph = s.ph) (hs : s.SameScan t) : t.BufTransient where
  idle_empty := fun h => hs.buf.trans (hB.idle_empty (hph.symm.trans h))
  scan_exact := fun h => by rw [hs.buf, hs.len]; exact hB.scan_exact (hph.symm.trans h)

theorem State.BufTransient.advance (hB : s.BufTransient) {b : BitSeq} (hs : s.ph = .scan) (hb : divBuffer s = .ok b) :
    (s.advance b).BufTransient where
  idle_empty := fun h => by simp [hs] at h
  scan_exact := fun _ => (divBuffer_length hb).trans (hB.scan_exact hs)

theorem State.bufTransient_of_idle (hi : s.ph = .idle) (hb : s.buf = []) : s.BufTransient where
  idle_empty := fun _ => hb
  scan_exact := fun h => by simp [hi] at h

theorem AcceptOutcome.bufTransient (hB : s.BufTransient) (h : AcceptOutcome i s t) : t.BufTransient := by
  cases h with
  | compute d rest hi' hd hi hq hg hne hc h =>
    subst h; exact State.bufTransient_loadScan (s := s.consume rest) (hB.idle_empty hi) _ _ _
  | verify d rest hi' hd hi hq hg hr hc h =>
    subst h; exact State.bufTransient_loadScan (s := s.consume rest) (hB.idle_empty hi) _ _ _
  | held h why | failed d rest e hd hl hi hq he h | loaded d rest hi' hd hi hq hv hc h | degree hi' hi hq hg h =>
    subst h; exact hB.of_sameScan rfl ⟨rfl, rfl, rfl, rfl, rfl⟩

theorem step_keeps_bufTransient (hB : s.BufTransient) (h : step s = .next t) : t.BufTransient := by
  cases step_cases h with
  | reset hr hd h => subst h; exact State.bufTransient_of_idle rfl rfl
  | divstep b hr hp hs hn hb h => subst h; exact hB.advance hs hb
  | complete rem hr hp hs hn hb h => subst h; exact State.bufTransient_of_idle (by simp) (by simp)
  | accepted w ws hr hp hs hc he ho => exact ho.bufTransient hB
  | transferred m hr hp hy h | waiting m hr hp hy h | noCommand hr hp hs hc h =>
    subst h; exact hB.of_sameScan rfl ⟨rfl, rfl, rfl, rfl, rfl⟩

end Sys2Proof.Machine

open Sys2Proof Sys2Proof.Machine

/-- Settles O58: the invariant through each of the things a step can do. -/
theorem everyStepKeepsInvariant : Obligations.EveryStepKeepsInvariant :=
  fun _ _ hI h => step_keeps_inv hI h

/-- Settles O21: the invariant leaves a scan an enabled step whose accesses are in bounds; nothing else can fault. -/
theorem noStepFaults : Obligations.NoStepFaults :=
  fun _ hI f => step_ne_fault hI f

/-- Settles O8: a step sends what a command or COMPLETE answers, or the response that waited, each a row of R58. -/
theorem onlyTabledResponsesAreEmitted : Obligations.OnlyTabledResponsesAreEmitted :=
  fun _ _ hI h => step_sentTabled hI h

/-- Settles O60: a load into the empty buffer fills LEN cells, DIVSTEP keeps their number, COMPLETE and reset empty the buffer. -/
theorem bufferIsTransient : Obligations.BufferIsTransient := by
  refine ⟨fun s t hB h => step_keeps_bufTransient hB h, fun s c b hB => ?_,
    fun c => State.bufTransient_of_idle rfl rfl, State.bufTransient_of_idle rfl rfl⟩
  exact ⟨⟨hB.idle_empty, hB.scan_exact⟩, ⟨hB.idle_empty, hB.scan_exact⟩, ⟨hB.idle_empty, hB.scan_exact⟩⟩

/-- Settles O57: with no cell written and PH = IDLE only the parameters' own constraints are left. -/
theorem invariantHoldsAtReset : Obligations.InvariantHoldsAtReset :=
  ⟨fun _ hc => State.inv_resetWith hc, State.inv_resetWith (by decide)⟩

/-- Settles O59: the invariant does not speak of the fields the host writes. -/
theorem hostActionsKeepInvariant : Obligations.HostActionsKeepInvariant :=
  fun _ c _ hI => ⟨hI.deliver c, { hI with }, { hI with }⟩

end

section
/-! PROOFS. Whole commands on the engine: the scan as `divide` with its frame (41_divider), COMPLETE (42_compute R91, 43_verify
R101), and for every delivered command within capacity the response it is answered with and the steps it takes
(70_reset_and_hazards section 5). -/

namespace Sys2Proof.Machine

variable {s t : State} {i : Instr}

/-! ## The frame of a scan -/

/-- Cells above the last window keep what they held (R85). -/
theorem scanFrom_getElem?_of_ge {g b : BitSeq} {k i a : Nat} (hb : i + k + (g.length - 1) ≤ b.length)
    (ha : i + k + (g.length - 1) ≤ a) : (scanFrom g k i b)[a]? = b[a]? := by
  induction k generalizing i b with
  | zero => rfl
  | succ k ih =>
    rw [scanFrom, ih (by rw [reduceAt_length]; omega) (by omega), reduceAt_getElem? (by omega), if_neg (by omega)]

theorem State.Inv.scanned_buf_getElem?_of_ge (hI : s.Inv) (hs : s.ph = .scan) (h0 : s.pos = 0) {a : Nat} (ha : s.len ≤ a) :
    (s.scanned s.npos).buf[a]? = s.buf[a]? := by
  have hlen := hI.scan_npos hs
  have hbuf := hI.scan_written hs
  have hg := hI.generator_length (hI.scan_gv hs)
  exact scanFrom_getElem?_of_ge (by omega) (by omega)

/-! ## The frame of the whole commands -/

section completed
variable (s : State) (b rest : BitSeq)

theorem State.sameGen_computeDone : s.SameGen (s.computeDone b rest) :=
  ⟨completeCompute_gen _ _, completeCompute_r _ _, completeCompute_gv _ _⟩

theorem State.sameInputs_computeDone : s.SameInputs (s.computeDone b rest) :=
  ⟨completeCompute_cfg _ _, completeCompute_rspReady _ _, completeCompute_rst _ _⟩

theorem State.sameGen_verifyDone : s.SameGen (s.verifyDone b rest) :=
  ⟨completeVerify_gen _ _, completeVerify_r _ _, completeVerify_gv _ _⟩

theorem State.sameInputs_verifyDone : s.SameInputs (s.verifyDone b rest) :=
  ⟨completeVerify_cfg _ _, completeVerify_rspReady _ _, completeVerify_rst _ _⟩

end completed

/-! ## What a delivered command is answered -/

/-- A command within capacity is delivered to an engine of the invariant, its header first on CMD before `hs` and its operand
first on DIN before `rest` (R50, R134). -/
structure State.Delivered (s : State) (i : Instr) (data rest : BitSeq) (hs : List Header) : Prop where
  inv : s.Inv
  rst : s.rst = false
  presents : s.Presents data rest
  len : data.length = i.operandLen
  wf : i.wf = true
  cmd : s.cmd = encode i :: hs
  fits : s.fits i = true

/-- In `k` steps the command is answered with `m` alone, ST.ERR carries its status, the engine is idle and the frame is
consumed. -/
def State.CompletesIn (s : State) (k : Nat) (m : Response) (rest : BitSeq) (hs : List Header) : Prop :=
  ∃ t, runFor k s = .next t ∧ s.Answered t m ∧ t.err = m.status ∧ t.ph = .idle ∧ t.cmd = hs ∧ t.din = rest

/-- The response to a command on the operand `data`: a function of GV, R, the generator and the operand (R70, R72, R92, R102). -/
def State.responseTo (s : State) (i : Instr) (data : BitSeq) : Response :=
  match i with
  | .loadgen _ =>
    if data.head? = some true then { status := .ok, val := data.length - 1, data := [] }
    else { status := .invalidGenerator, val := 0, data := [] }
  | .degree =>
    if s.gv = true then { status := .ok, val := s.r, data := [] }
    else { status := .invalidGenerator, val := 0, data := [] }
  | .compute _ =>
    if s.gv = false then { status := .invalidGenerator, val := 0, data := [] }
    else if data = [] then { status := .emptyPayload, val := 0, data := [] }
    else { status := .ok, val := s.r, data := computeOf data s.generator }
  | .verify _ =>
    if s.gv = false then { status := .invalidGenerator, val := 0, data := [] }
    else if data.length < s.r then { status := .frameTooShort, val := 0, data := [] }
    else { status := .ok, val := boolVal (verifyOf data s.generator), data := [] }

/-- The steps a command takes: one, and with a scan one more for each position and one for COMPLETE (R149). -/
def State.stepsOf (s : State) (i : Instr) (data : BitSeq) : Nat :=
  match i with
  | .loadgen _ => 1
  | .degree => 1
  | .compute _ => if s.gv = false then 1 else if data = [] then 1 else data.length + 2
  | .verify _ => if s.gv = false then 1 else if data.length < s.r then 1 else data.length - s.r + 2

theorem State.stepsOf_le (s : State) (i : Instr) (data : BitSeq) : s.stepsOf i data ≤ data.length + 2 := by
  cases i with
  | loadgen n | degree => simp only [State.stepsOf]; omega
  | compute n | verify n => simp only [State.stepsOf]; split_ifs <;> omega

theorem State.stepsOf_congr {s₁ s₂ : State} (hgv : s₁.gv = s₂.gv) (hr : s₁.r = s₂.r) (i : Instr) (data : BitSeq) :
    s₁.stepsOf i data = s₂.stepsOf i data := by
  cases i <;> simp only [State.stepsOf, hgv, hr]

/-- The generator's bits count only while GV is set. -/
theorem State.responseTo_congr {s₁ s₂ : State} (hgv : s₁.gv = s₂.gv) (hr : s₁.r = s₂.r)
    (hgen : s₁.gv = true → s₁.generator = s₂.generator) (i : Instr) (data : BitSeq) :
    s₁.responseTo i data = s₂.responseTo i data := by
  cases hg : s₁.gv with
  | true => cases i <;> simp only [State.responseTo, ← hgv, hr, hgen hg]
  | false => cases i <;> simp only [State.responseTo, ← hgv, hg, hr, if_true]

namespace State.Delivered

variable {data rest : BitSeq} {hs : List Header} {n : Nat}

theorem step_eq_exec (hd : s.Delivered i data rest hs) : step s = exec i s :=
  step_of_header hd.rst hd.presents.idle hd.presents.quiet hd.cmd hd.wf

theorem tail_cmd (hd : s.Delivered i data rest hs) : s.cmd.tail = hs :=
  congrArg List.tail hd.cmd

theorem length_lt (hd : s.Delivered i data rest hs) : data.length < 2 ^ 30 :=
  hd.len.trans_lt (Instr.operandLen_lt hd.wf)

/-- Every response of a command is a row of R58. -/
theorem responseTo_wf (hd : s.Delivered i data rest hs) : (s.responseTo i data).wf = true := by
  have hlen := hd.length_lt
  have hr := hd.inv.r_lt
  cases i with
  | loadgen n =>
    simp only [State.responseTo]
    split_ifs
    · exact Response.wf_of_ok (by omega) (.inl rfl)
    · exact Response.wf_of_error _
  | degree =>
    simp only [State.responseTo]
    split_ifs
    · exact Response.wf_of_ok hr (.inl rfl)
    · exact Response.wf_of_error _
  | compute n =>
    simp only [State.responseTo]
    split_ifs with hg
    · exact Response.wf_of_error _
    · exact Response.wf_of_error _
    · exact Response.wf_of_ok hr (.inr (hd.inv.computeOf_generator_length (by simpa using hg) data))
  | verify n =>
    simp only [State.responseTo]
    split_ifs
    · exact Response.wf_of_error _
    · exact Response.wf_of_error _
    · exact Response.wf_of_ok (boolVal_lt _) (.inl rfl)

/-- A command that fails completes in its ACCEPT step (R124). -/
theorem completesIn_of_failed (hd : s.Delivered i data rest hs) {e : Status}
    (h : exec i s = .next (s.failedWith rest e)) :
    s.CompletesIn 1 { status := e, val := 0, data := [] } rest hs :=
  ⟨_, runFor_one (hd.step_eq_exec.trans h), s.answered_failedWith rest e, rfl, hd.presents.idle, hd.tail_cmd, rfl⟩

/-- LOADGEN (R70). -/
theorem loadgen_completesIn (hd : s.Delivered (.loadgen n) data rest hs) :
    s.CompletesIn 1 (s.responseTo (.loadgen n) data) rest hs := by
  obtain rfl : data.length = n := hd.len
  have hfit : data.length - 1 ≤ s.cfg.rmax := of_decide_eq_true hd.fits
  rw [State.responseTo]
  split_ifs with hv
  · exact ⟨_, runFor_one (hd.step_eq_exec.trans (exec_loadgen_of_valid hd.presents hv hfit)),
      s.answered_loadgenDone data rest, rfl, hd.presents.idle, hd.tail_cmd, rfl⟩
  · exact hd.completesIn_of_failed (exec_loadgen_of_invalid hd.presents hv hfit)

/-- DEGREE (R72). -/
theorem degree_completesIn (hd : s.Delivered .degree data rest hs) :
    s.CompletesIn 1 (s.responseTo .degree data) rest hs := by
  obtain rfl : data = [] := List.length_eq_zero_iff.1 hd.len
  obtain rfl : s.din = rest := hd.presents.din
  have he := exec_degree_eq hd.presents.idle hd.presents.quiet
  rw [State.responseTo]
  split_ifs with hg
  · rw [if_pos hg] at he
    exact ⟨_, runFor_one (hd.step_eq_exec.trans he), ((s.consume s.din).answered_finish s.r []).of_channels rfl rfl rfl,
      rfl, hd.presents.idle, hd.tail_cmd, rfl⟩
  · rw [if_neg hg] at he
    exact hd.completesIn_of_failed he

/-- COMPUTE (R90, R92). -/
theorem compute_completesIn (hd : s.Delivered (.compute n) data rest hs) :
    s.CompletesIn (s.stepsOf (.compute n) data) (s.responseTo (.compute n) data) rest hs := by
  obtain rfl : data.length = n := hd.len
  have hfit : data.length + s.r ≤ s.cfg.lmax := of_decide_eq_true hd.fits
  rw [State.responseTo, State.stepsOf]
  split_ifs with hg hne
  · exact hd.completesIn_of_failed (exec_compute_of_no_generator hd.presents hg hfit)
  · subst hne
    exact hd.completesIn_of_failed (exec_compute_of_empty hd.presents (by simpa using hg) (by simpa using hfit))
  · exact ⟨_, runFor_compute hd.inv hd.rst hd.presents (by simpa using hg) hne hd.length_lt hfit hd.cmd,
      s.answered_computeDone data rest, rfl, rfl, hd.tail_cmd, rfl⟩

/-- VERIFY (R100, R102). -/
theorem verify_completesIn (hd : s.Delivered (.verify n) data rest hs) :
    s.CompletesIn (s.stepsOf (.verify n) data) (s.responseTo (.verify n) data) rest hs := by
  obtain rfl : data.length = n := hd.len
  have hfit : data.length ≤ s.cfg.lmax := of_decide_eq_true hd.fits
  rw [State.responseTo, State.stepsOf]
  split_ifs with hg hr
  · exact hd.completesIn_of_failed (exec_verify_of_no_generator hd.presents hg hfit)
  · have he := exec_verify_of_generator hd.presents (by simpa using hg) hfit
    exact hd.completesIn_of_failed (he.trans (if_pos hr))
  · exact ⟨_, runFor_verify hd.inv hd.rst hd.presents (by simpa using hg) (Nat.not_lt.1 hr) hd.length_lt hfit hd.cmd,
      s.answered_verifyDone data rest, rfl, rfl, hd.tail_cmd, rfl⟩

/-- Every delivered command within capacity is answered, in the steps R149 counts (R150). -/
theorem completesIn (hd : s.Delivered i data rest hs) :
    s.CompletesIn (s.stepsOf i data) (s.responseTo i data) rest hs := by
  cases i with
  | loadgen n => exact hd.loadgen_completesIn
  | degree => exact hd.degree_completesIn
  | compute n => exact hd.compute_completesIn
  | verify n => exact hd.verify_completesIn

end State.Delivered

end Sys2Proof.Machine

open Sys2Proof Sys2Proof.Machine

/-- Settles O19: the NPOS DIVSTEPs are `scanFrom`, whose last R bits are `divide` and whose windows end inside the buffer. -/
theorem scanComputesDivide : Obligations.ScanComputesDivide := by
  intro s hI hr hs h0
  have hk : s.pos + s.npos ≤ s.npos := by omega
  have hpos : (s.scanned s.npos).pos = s.npos := by simp [State.scanned, h0]
  exact ⟨s.scanned s.npos, runFor_scanned hI hr hs hk, hpos, hI.remainder_scanned hs h0,
    fun a ha => (hI.scanned hs hk).scan_zero hs a (hpos.symm ▸ ha), fun a ha => hI.scanned_buf_getElem?_of_ge hs h0 ha,
    hs, rfl, rfl, rfl, rfl, rfl, ⟨rfl, rfl, rfl⟩, ⟨rfl, rfl, rfl⟩, ⟨rfl, rfl⟩, ⟨rfl, rfl, rfl⟩⟩

/-- Settles O25: ACCEPT loads the payload and R zeros, and the scan divides them. -/
theorem computeCommandReturnsCompute : Obligations.ComputeCommandReturnsCompute := by
  intro s p rest hs hI hr hp hg hne hw hl hc
  have hdeg : s.generator.length - 1 = s.r := by rw [hI.generator_length hg, Nat.add_sub_cancel]
  exact ⟨by rw [computeOf, hdeg], hI.computeOf_generator_length hg p, s.computeDone p rest,
    runFor_compute hI hr hp hg hne hw hl hc, s.answered_computeDone p rest, rfl, rfl, completeCompute_vok _ _,
    congrArg List.tail hc, rfl, s.sameGen_computeDone p rest, s.sameInputs_computeDone p rest⟩

/-- Settles O30: ACCEPT loads the frame as it stands, and the scan divides it. -/
theorem verifyCommandAnswersVerify : Obligations.VerifyCommandAnswersVerify := by
  intro s f rest hs hI hr hp hg hle hw hl hc
  exact ⟨rfl, s.verifyDone f rest, runFor_verify hI hr hp hg hle hw hl hc, s.answered_verifyDone f rest, rfl, rfl, rfl,
    congrArg List.tail hc, rfl, s.sameGen_verifyDone f rest, s.sameInputs_verifyDone f rest⟩

/-- Settles O53: each command's response is tabled and comes within the steps of a scan over its operand. -/
theorem deliveredCommandIsAnswered : Obligations.DeliveredCommandIsAnswered := by
  intro i s data rest hs hI hr hp hl hw hc hf
  have hd : s.Delivered i data rest hs := ⟨hI, hr, hp, hl, hw, hc, hf⟩
  obtain ⟨t, hrun, hans, hdone⟩ := hd.completesIn
  exact ⟨_, t, _, s.stepsOf_le i data, hrun, hans, hd.responseTo_wf, hdone⟩

/-- Settles O54: the steps and the response are functions of GV, R, the generator and the operand, on which the two engines
agree. -/
theorem resultDependsOnlyOnGeneratorAndOperand : Obligations.ResultDependsOnlyOnGeneratorAndOperand := by
  intro i s₁ s₂ data rest₁ rest₂ hs₁ hs₂ hI₁ hI₂ hr₁ hr₂ hp₁ hp₂ hl hw hc₁ hc₂ hgv hr hgen hf₁ hf₂
  have hd₁ : s₁.Delivered i data rest₁ hs₁ := ⟨hI₁, hr₁, hp₁, hl, hw, hc₁, hf₁⟩
  have hd₂ : s₂.Delivered i data rest₂ hs₂ := ⟨hI₂, hr₂, hp₂, hl, hw, hc₂, hf₂⟩
  obtain ⟨t₁, hrun₁, hans₁, herr₁, hph₁, -⟩ := hd₁.completesIn
  obtain ⟨t₂, hrun₂, hans₂, herr₂, hph₂, -⟩ := hd₂.completesIn
  rw [← State.stepsOf_congr hgv hr] at hrun₂
  rw [← State.responseTo_congr hgv hr hgen] at hans₂ herr₂
  exact ⟨_, t₁, t₂, _, hrun₁, hrun₂, hans₁, hans₂, hph₁, hph₂, herr₁.trans herr₂.symm⟩

/-- Settles O22: whatever OPL says, COMPLETE releases the buffer and writes PH, ST and the response side only. -/
theorem completeFrame : Obligations.CompleteFrame := by
  intro s hI hr hs hn
  have hbuf := s.completeWith_buf s.remainder
  refine ⟨_, step_of_pos_eq_npos hI hr hs hn, hbuf, fun bound addr n h0 => ?_, fun bound a => ?_, ?_⟩
  · rw [hbuf]; exact memRead_nil h0
  · rw [hbuf]; exact readCell_nil bound a
  · exact ⟨by simp, by simp, by simp, by simp, ⟨by simp, by simp, by simp⟩, ⟨by simp, by simp, by simp⟩, by simp,
      by simp⟩

/-- Settles O24: in a scan of the invariant the R bits of REM are written, and COMPLETE of a COMPUTE returns them. -/
theorem computeCompleteReturnsRemainder : Obligations.ComputeCompleteReturnsRemainder := by
  intro s hI hr hs ho hn
  have he := step_of_pos_eq_npos hI hr hs hn
  rw [State.completeWith_of_compute ho] at he
  exact ⟨_, he, rfl, rfl, rfl, ⟨rfl, rfl, rfl⟩, rfl, hI.remainder_length hs, answered_completeCompute s s.remainder⟩

/-- Settles O27, by evaluating the scan on the four sequences. -/
theorem correctedWorkedExample : Obligations.CorrectedWorkedExample := by
  unfold Obligations.CorrectedWorkedExample
  decide

end
